-- ==== Sys2Proof/Word.lean ====
section
/-! DEFINITION. The widths of the framebuffer block: a nibble (index and register fields), a byte (a row, a pair's half) and
a word (a command, a response, a pair). Every value of the block is unsigned (00_scope.md R10). -/

namespace Sys2Proof

/-- Four bits: an index field, a register field, the opcode (30_encoding.md R61). -/
abbrev Nibble := BitVec 4

/-- Eight bits: a row value or one byte of a pair (00_scope.md R9, `ROW_WIDTH`). -/
abbrev Byte := BitVec 8

/-- Sixteen bits: a command word, a response word, a pair on the bus (00_scope.md R9, `CMD_WIDTH`). -/
abbrev Word := BitVec 16

end Sys2Proof
end

