-- ==== Sys2Proof/Config.lean ====
section
/-! DEFINITION. What an implementation fixes (the parameters of 00_scope.md R9) and the free values: the inputs of the
block's environment and what no rule settles. A free value is an opaque constant, so no proof can see it. -/

namespace Sys2Proof

/-- An external request to the host agent (60_exceptions.md R162 to R169). -/
inductive Request where
  /-- Start scrolling (60_exceptions.md R163). -/
  | start
  /-- Stop scrolling (60_exceptions.md R163, R166). -/
  | stop
  /-- `setSpeed(periodMillis)` (60_exceptions.md R168). -/
  | setSpeed (millis : Nat)
  /-- `togglePixel(row, col)` (60_exceptions.md R169). -/
  | togglePixel (row col : Nibble)
  /-- Begin the driver's setup sequence (70_reset_and_hazards.md R179). DESIGN CHOICE, log entry 9. -/
  | beginSetup
  /-- Issue one command word, the liberty of 60_exceptions.md R170: it stands for any other host of the block.
  DESIGN CHOICE, log entry 9. -/
  | command (w : Word)
deriving DecidableEq, Repr

/-- The inputs from outside the block and its host in one step: the input ports of 10_state.md R37 that the Bus Sink and
the reset line drive, and the host agent's two inputs (60_exceptions.md R164, R169). -/
structure Inputs where
  /-- `rst`. -/
  rst : Bool
  /-- `bus_ack`. -/
  busAck : Bool
  /-- `bus_err`, which counts only with `bus_ack`. -/
  busErr : Bool
  /-- The request that arrives at the host agent in this step, if any. -/
  request : Option Request
  /-- The period the host agent waits for has elapsed. -/
  elapsed : Bool
deriving DecidableEq, Repr, Inhabited

/-- No reset, no answer, no request, no period elapsed. -/
def Inputs.quiet : Inputs :=
  { rst := false, busAck := false, busErr := false, request := none, elapsed := false }

/-- The parameters of 00_scope.md R9 that are not fixed numbers of the model. Every function that depends on one takes it
as an argument (10_state.md R39). -/
structure Params where
  /-- `LEFT_SHIFT_PRESENT`. -/
  leftShiftPresent : Bool
  /-- `BUS_TIMEOUT`: none, or a count of bus-wait steps. -/
  busTimeout : Option Nat
  /-- `PERIOD_MAX`, in milliseconds. -/
  periodMax : Nat
deriving DecidableEq, Repr

/-- `PERIOD_DEFAULT`, 20 milliseconds (00_scope.md R9). -/
def Config.periodDefault : Nat := 20

/-- One less than `BUS_TIMEOUT`, where it is set: OPEN, none or a positive count (D16). Free; log entry 3. -/
opaque Config.busTimeoutLessOne : Option Nat

/-- One less than `PERIOD_MAX`: OPEN, a positive integer (D21). Free; log entry 3. -/
opaque Config.periodMaxLessOne : Nat

/-- The inputs of the environment, one value per draw: the Bus Sink's answers (42_row_serializer.md R127), the reset line,
the requests and the elapsing of the period (60_exceptions.md R170). Free; log entry 1. -/
opaque Config.freeInputs : Nat → Inputs

/-- Whether the Bus Sink received the pair that a reset withdrew (70_reset_and_hazards.md R177), one value per draw.
Free; log entry 16. -/
opaque Config.freeReceived : Nat → Bool

/-- The parameters of this machine: the left shifts are present (00_scope.md R9), the two OPEN parameters are free. -/
def Config.params : Params :=
  { leftShiftPresent := true
    busTimeout := Config.busTimeoutLessOne.map (· + 1)
    periodMax := Config.periodMaxLessOne + 1 }

end Sys2Proof
end

