-- ==== Sys2Proof/Syntax.lean ====
section
/-! DEFINITION. The commands of FBCMD version 1 (30_encoding.md R66), one constructor per row of spec/opcode_table.json,
and the enumerated set of device registers (42_row_serializer.md R120). -/

namespace Sys2Proof

/-- The fourteen device registers of the Register Protocol (42_row_serializer.md R120). The numbers 0xD and 0xE are not
in the set. -/
inductive DevReg where
  /-- No-op, 0x0. -/
  | noop
  /-- Row `r + 1`, register `r + 1` (0x1 to 0x8): the device row of buffer row `r` (42_row_serializer.md R122). -/
  | row (r : Fin 8)
  /-- Decode mode, 0x9. -/
  | decodeMode
  /-- Intensity, 0xA. -/
  | intensity
  /-- Scan limit, 0xB. -/
  | scanLimit
  /-- Shutdown, 0xC. -/
  | shutdown
  /-- Display test, 0xF. -/
  | displayTest
deriving DecidableEq, Repr

/-- One command. Index operands keep their four bits, since 8 to 15 decode and are refused at execution
(30_encoding.md R63, R70). -/
inductive Instr where
  /-- 0x0, 40_pixel_buffer.md R81. -/
  | nop
  /-- 0x1, 40_pixel_buffer.md R82. -/
  | clear
  /-- 0x2, 40_pixel_buffer.md R83. -/
  | set (row col : Nibble) (lit : Bool)
  /-- 0x3, 40_pixel_buffer.md R84. -/
  | toggle (row col : Nibble)
  /-- 0x4, 40_pixel_buffer.md R85. -/
  | get (row col : Nibble)
  /-- 0x5, 40_pixel_buffer.md R86. -/
  | rowbits (row : Nibble)
  /-- 0x6, 41_shift_engine.md R101. -/
  | shrdrop
  /-- 0x7, 41_shift_engine.md R102. -/
  | shrloop
  /-- 0x8, 41_shift_engine.md R103; present only with `LEFT_SHIFT_PRESENT`. -/
  | shldrop
  /-- 0x9, 41_shift_engine.md R104; present only with `LEFT_SHIFT_PRESENT`. -/
  | shlloop
  /-- 0xA, 42_row_serializer.md R124. -/
  | flush
  /-- 0xB, 42_row_serializer.md R126. -/
  | emit (reg : DevReg) (value : Byte)
  /-- 0xC to 0xF, the table's reserved row: bits 13..0 of a word whose bits 15..14 are 11 (30_encoding.md R67). It raises
  `IllegalCommand` (log entry 17). -/
  | reserved (low : BitVec 14)
deriving DecidableEq, Repr

end Sys2Proof
end

