-- ==== Sys2Proof/Machine/State.lean ====
section
/-! DEFINITION. The state: the block's own (10_state.md R20 to R39), that of its environment (60_exceptions.md R160 to
R170), and the model's three fields of its own (`sink`, `shown`, `draws`). Plain data. -/

namespace Sys2Proof.Machine

/-- The framebuffer as its eight row registers (10_state.md R20, R21): row `r` at index `r`, column 0 in bit 7
(00_scope.md R12). -/
abbrev FrameBuffer := Vector Byte 8

/-- The legal values of `rsp.status` (10_state.md R25); the reserved codes 4 to 7 are never written. -/
inductive Status where
  /-- Code 0. -/
  | ok
  /-- Code 1. -/
  | outOfBounds
  /-- Code 2. -/
  | illegalCommand
  /-- Code 3. -/
  | busError
deriving DecidableEq, Repr

/-- The response register `rsp`, 10_state.md R24. -/
structure Rsp where
  /-- `rsp[15:12]`. -/
  op : Nibble
  /-- `rsp[11]`. -/
  sticky : Bool
  /-- `rsp[10:8]`. -/
  status : Status
  /-- `rsp[7:0]`. -/
  data : Byte
deriving DecidableEq, Repr

/-- One pair `[register, value]` (20_memory.md R42). -/
structure Pair where
  /-- The register byte, the first. -/
  reg : Byte
  /-- The value byte, the second. -/
  value : Byte
deriving DecidableEq, Repr

/-- The sequencing state, 10_state.md R30. The pair an EMIT offers is held in `State.offer` (10_state.md R32, R39). -/
inductive Phase where
  /-- No command in progress. -/
  | idle
  /-- A FLUSH in progress: row `k` is offered, `n` pairs have been answered `ok`. -/
  | flushing (k : Fin 8) (n : Fin 9)
  /-- An EMIT in progress. -/
  | emitting
deriving DecidableEq, Repr

/-- How the offer of a pair ended (42_row_serializer.md R127, 70_reset_and_hazards.md R177). -/
inductive Ending where
  /-- Answered `ok`. -/
  | ok
  /-- Answered `err`. -/
  | err
  /-- Not answered when `BUS_TIMEOUT` expired; to the command this is `err`. -/
  | timedOut
  /-- Withdrawn by a reset; whether the Bus Sink received it is free. -/
  | withdrawn (received : Bool)
deriving DecidableEq, Repr

/-- One entry of the record of offered pairs. -/
structure SinkEvent where
  pair : Pair
  ending : Ending
deriving DecidableEq, Repr

/-- The two states of the scroll loop, 60_exceptions.md R163. -/
inductive Mode where
  | running
  | stopped
deriving DecidableEq, Repr

/-- How far the driver's one-time setup sequence has come (70_reset_and_hazards.md R179, R180). -/
inductive Setup where
  /-- Not yet completed. -/
  | pending
  /-- All five EMITs responded OK. -/
  | done
  /-- One of them responded `BusError`; the animation never starts. -/
  | failed
deriving DecidableEq, Repr

/-- What the host agent is in the middle of. -/
inductive Job where
  /-- Nothing: stopped, or between two ticks. -/
  | free
  /-- EMIT `k` of the setup sequence is issued (70_reset_and_hazards.md R179). -/
  | setup (k : Fin 5)
  /-- The wait of a tick, with the period read at the tick's start (60_exceptions.md R164). -/
  | waiting (millis : Nat)
  /-- The SHRLOOP of a tick is issued. -/
  | tickShift
  /-- The FLUSH of a tick is issued. -/
  | tickFlush
  /-- A served request's command is issued; `resume` is the wait to go back to, if it came in one. -/
  | serving (resume : Option Nat)
deriving DecidableEq, Repr

/-- An error the host agent surfaces to its owner or caller. -/
inductive HostError where
  /-- InitializationError (60_exceptions.md R148). -/
  | setupFailed
  /-- The BusError of a tick (60_exceptions.md R167). -/
  | tickBusError
  /-- The error status of a served request's command (60_exceptions.md R145). -/
  | requestFailed (status : Status)
deriving DecidableEq, Repr

/-- The host agent (60_exceptions.md R161 to R169). `ScrollState.enabled` is `mode = running` (R162). -/
structure HostAgent where
  /-- Running or Stopped (60_exceptions.md R163). -/
  mode : Mode
  /-- `ScrollState.period`, milliseconds (60_exceptions.md R162). -/
  period : Nat
  /-- The setup sequence. -/
  setup : Setup
  /-- What is in progress. -/
  job : Job
  /-- Requests not yet served, oldest first (60_exceptions.md R161, R169). -/
  queue : List Request
  /-- Errors surfaced, oldest first. -/
  errors : List HostError
deriving DecidableEq, Repr

/-- The host agent at its start: Stopped, the default period, setup pending (60_exceptions.md R162, R163). -/
def HostAgent.initial : HostAgent :=
  { mode := .stopped, period := Config.periodDefault, setup := .pending, job := .free, queue := [], errors := [] }

/-- Everything a step reads or writes: the block, its ports, its environment. -/
structure State where
  /-- The framebuffer (10_state.md R20). -/
  fb : FrameBuffer
  /-- The response register (10_state.md R24). -/
  rsp : Rsp
  /-- `rsp_valid`: the step that led to this state completed a command (10_state.md R37). -/
  rspValid : Bool
  /-- The sequencing state (10_state.md R30). -/
  phase : Phase
  /-- The pair on the bus port: `bus_valid` and `bus_data` (10_state.md R32, R37). -/
  offer : Option Pair
  /-- Bus-wait steps of the offered pair (42_row_serializer.md R127). -/
  waited : Nat
  /-- `cmd_valid` and `cmd_word`: the word the host holds on the command port (10_state.md R37). -/
  cmd : Option Word
  /-- The input ports and the host's inputs in the coming step. -/
  inp : Inputs
  /-- The host agent. -/
  host : HostAgent
  /-- The model's record of the Bus Sink: the pairs whose offer has ended, oldest first (log entry 5). -/
  sink : List SinkEvent
  /-- The model's record of the Display Sink: the snapshots it was given, oldest first (log entry 5). -/
  shown : List (BitVec 64)
  /-- How many free values have been drawn (log entry 1). -/
  draws : Nat
deriving DecidableEq, Repr

/-- No step of this machine ends in a fault: each error of the block is a next state with an error response
(60_exceptions.md R143), and the bus stall goes on stepping (70_reset_and_hazards.md R186). So there is no reason to
list; log entry 17. -/
inductive Fault where
deriving DecidableEq, Repr

/-- Why a step has no meaning in the model. -/
inductive Refusal where
  /-- An instruction with no meaning yet, refused by name in `exec`'s arm (safe). No arm does so: every instruction has its
  meaning. -/
  | notModelled (mnemonic : String)
deriving DecidableEq, Repr

/-- The outcome of a step or of a meaning. -/
abbrev Outcome := Host.Outcome State Fault Refusal

/-- The state right after reset: 10_state.md R35 for the block, 60_exceptions.md R162, R163 for the host agent, the values
of log entries 1, 2, 5, 7 and 9 for the rest. -/
def State.reset : State :=
  { fb := Vector.replicate 8 0#8
    rsp := { op := 0#4, sticky := false, status := .ok, data := 0#8 }
    rspValid := false
    phase := .idle
    offer := none
    waited := 0
    cmd := none
    inp := Inputs.quiet
    host := HostAgent.initial
    sink := []
    shown := []
    draws := 0 }

end Sys2Proof.Machine
end

