-- ==== Sys2Proof/Machine/Flags.lean ====
section
/-! DEFINITION. The response register's codes and updates: the only flags of the block (10_state.md R24 to R27). -/

namespace Sys2Proof.Machine

/-- The code of a status, 10_state.md R25. -/
def Status.code : Status → BitVec 3
  | .ok => 0#3
  | .outOfBounds => 1#3
  | .illegalCommand => 2#3
  | .busError => 3#3

/-- `rsp` as its 16-bit word, 10_state.md R24. -/
def Rsp.word (r : Rsp) : Word := r.op ++ BitVec.ofBool r.sticky ++ r.status.code ++ r.data

/-- `rsp_word` is always `rsp` (10_state.md R37). -/
def State.rspWord (s : State) : Word := s.rsp.word

/-- The three errors a command can raise, 60_exceptions.md R140 to R142. -/
inductive Err where
  | outOfBounds
  | illegalCommand
  | busError
deriving DecidableEq, Repr

/-- `code(E)` of 60_exceptions.md R143, as a status. -/
def Err.status : Err → Status
  | .outOfBounds => .outOfBounds
  | .illegalCommand => .illegalCommand
  | .busError => .busError

/-- `rsp.op <- w[15:12]` (40_pixel_buffer.md R80). -/
def Rsp.accepted (r : Rsp) (op : Nibble) : Rsp := { r with op := op }

/-- The response of a command that completes OK: `sticky` is unchanged (40_pixel_buffer.md R80, 10_state.md R26). -/
def Rsp.completed (r : Rsp) (data : Byte) : Rsp := { r with status := .ok, data := data }

/-- The response of a command that raises: `sticky` is set (60_exceptions.md R143, 10_state.md R26). -/
def Rsp.raised (r : Rsp) (e : Err) (info : Byte) : Rsp := { r with status := e.status, data := info, sticky := true }

end Sys2Proof.Machine
end

