-- ==== Sys2Proof/WellFormed.lean ====
section
/-! DEFINITION. Which commands the block has. The register of an EMIT is in the enumerated set by its type
(42_row_serializer.md R120) and an index may be out of range (30_encoding.md R70), so the one check left is the presence
of the left shifts. -/

namespace Sys2Proof

/-- The command exists in a block whose parameter `LEFT_SHIFT_PRESENT` is `leftShift` (30_encoding.md R67). -/
def Instr.wellFormed (leftShift : Bool) : Instr → Bool
  | .shldrop => leftShift
  | .shlloop => leftShift
  | .nop => true
  | .clear => true
  | .set _ _ _ => true
  | .toggle _ _ => true
  | .get _ _ => true
  | .rowbits _ => true
  | .shrdrop => true
  | .shrloop => true
  | .flush => true
  | .emit _ _ => true
  | .reserved _ => true

end Sys2Proof
end

