-- ==== Sys2Proof/Decode.lean ====
section
/-! DEFINITION. The decoder of 30_encoding.md R71, total on the 16-bit words and refusing by name, and after it the encoder
written from the formats of R61 and the opcode map of R66. -/

namespace Sys2Proof

/-- Why a word decodes to no command. The reserved opcodes 0xC to 0xF are a row of the table and decode to
`Instr.reserved` (log entry 17); every case here raises `IllegalCommand` (60_exceptions.md R141). -/
inductive DecodeError where
  /-- A 1 in a field marked `zero` (30_encoding.md R68). -/
  | zeroField
  /-- An EMIT whose register is 0xD or 0xE (30_encoding.md R69). -/
  | unlistedRegister
  /-- Opcode 0x8 or 0x9 in a block without left shifts (30_encoding.md R67). -/
  | leftShiftAbsent
deriving DecidableEq, Repr

/-- The number of a device register, 42_row_serializer.md R120. -/
def DevReg.number : DevReg → Nibble
  | .noop => 0x0#4
  | .row r => BitVec.ofNat 4 (r.val + 1)
  | .decodeMode => 0x9#4
  | .intensity => 0xA#4
  | .scanLimit => 0xB#4
  | .shutdown => 0xC#4
  | .displayTest => 0xF#4

/-- The device register with a number, none for 0xD and 0xE (30_encoding.md R69, 42_row_serializer.md R120). -/
def DevReg.ofNumber (n : Nibble) : Option DevReg :=
  match n.toNat with
  | 0x0 => some .noop
  | 0x1 => some (.row 0)
  | 0x2 => some (.row 1)
  | 0x3 => some (.row 2)
  | 0x4 => some (.row 3)
  | 0x5 => some (.row 4)
  | 0x6 => some (.row 5)
  | 0x7 => some (.row 6)
  | 0x8 => some (.row 7)
  | 0x9 => some .decodeMode
  | 0xA => some .intensity
  | 0xB => some .scanLimit
  | 0xC => some .shutdown
  | 0xF => some .displayTest
  | _ => none

/-- `op = w[15:12]`, 30_encoding.md R62. -/
def opField (w : Word) : Nibble := w.extractLsb' 12 4

/-- `w[11:8]`: `row`, or `reg` of an EMIT (30_encoding.md R63, R65). -/
def rowField (w : Word) : Nibble := w.extractLsb' 8 4

/-- `w[7:4]`: `col` (30_encoding.md R63). -/
def colField (w : Word) : Nibble := w.extractLsb' 4 4

/-- `w[0]`: `lit` (30_encoding.md R64). -/
def litField (w : Word) : Bool := w.getLsbD 0

/-- `w[7:0]`: `value` (30_encoding.md R65). -/
def valueField (w : Word) : Byte := w.extractLsb' 0 8

/-- A field marked `zero` in 30_encoding.md R61: the `len` bits from bit `lo` must be 0 (R68). -/
def requireZero (w : Word) (lo len : Nat) (i : Instr) : Except DecodeError Instr :=
  if w.extractLsb' lo len = 0#len then .ok i else .error .zeroField

/-- A left shift, present only with `LEFT_SHIFT_PRESENT` (30_encoding.md R67). -/
def requireLeftShift (leftShift : Bool) (w : Word) (i : Instr) : Except DecodeError Instr :=
  if leftShift then requireZero w 0 12 i else .error .leftShiftAbsent

/-- 30_encoding.md R71: the decoder, a total function of the word and of `LEFT_SHIFT_PRESENT`. -/
def decodeWith (leftShift : Bool) (w : Word) : Except DecodeError Instr :=
  match (opField w).toNat with
  | 0x0 => requireZero w 0 12 .nop
  | 0x1 => requireZero w 0 12 .clear
  | 0x2 => requireZero w 1 3 (.set (rowField w) (colField w) (litField w))
  | 0x3 => requireZero w 0 4 (.toggle (rowField w) (colField w))
  | 0x4 => requireZero w 0 4 (.get (rowField w) (colField w))
  | 0x5 => requireZero w 0 8 (.rowbits (rowField w))
  | 0x6 => requireZero w 0 12 .shrdrop
  | 0x7 => requireZero w 0 12 .shrloop
  | 0x8 => requireLeftShift leftShift w .shldrop
  | 0x9 => requireLeftShift leftShift w .shlloop
  | 0xA => requireZero w 0 12 .flush
  | 0xB =>
    match DevReg.ofNumber (rowField w) with
    | some reg => .ok (.emit reg (valueField w))
    | none => .error .unlistedRegister
  | _ => .ok (.reserved (w.extractLsb' 0 14))

/-- The decoder of this machine, with its own `LEFT_SHIFT_PRESENT`. -/
def decode (w : Word) : Except DecodeError Instr := decodeWith Config.params.leftShiftPresent w

/-- The command read from a word whose bits are numbered as spec/opcode_table.json numbers them: `nbits` bits are given,
every bit above them is 0. A command is one 16-bit word (30_encoding.md R60), so there are no further words. -/
def decodeTableWord (nbits w : Nat) : Option Instr :=
  match decode (BitVec.ofNat 16 (w % 2 ^ nbits)) with
  | .ok i => some i
  | .error _ => none

/-- The opcode of a command, bits 15..12 of its word in every format (30_encoding.md R61, R66). -/
def Instr.opcode : Instr → Nibble
  | .nop => 0x0#4
  | .clear => 0x1#4
  | .set _ _ _ => 0x2#4
  | .toggle _ _ => 0x3#4
  | .get _ _ => 0x4#4
  | .rowbits _ => 0x5#4
  | .shrdrop => 0x6#4
  | .shrloop => 0x7#4
  | .shldrop => 0x8#4
  | .shlloop => 0x9#4
  | .flush => 0xA#4
  | .emit _ _ => 0xB#4
  | .reserved low => 0b11#2 ++ low.extractLsb' 12 2

/-- The word of a command: formats Z, C, R and E of 30_encoding.md R61 with the opcodes of R66. -/
def encode : Instr → Word
  | .nop => 0x0#4 ++ 0#12
  | .clear => 0x1#4 ++ 0#12
  | .set row col lit => 0x2#4 ++ row ++ col ++ 0#3 ++ BitVec.ofBool lit
  | .toggle row col => 0x3#4 ++ row ++ col ++ 0#4
  | .get row col => 0x4#4 ++ row ++ col ++ 0#4
  | .rowbits row => 0x5#4 ++ row ++ 0#8
  | .shrdrop => 0x6#4 ++ 0#12
  | .shrloop => 0x7#4 ++ 0#12
  | .shldrop => 0x8#4 ++ 0#12
  | .shlloop => 0x9#4 ++ 0#12
  | .flush => 0xA#4 ++ 0#12
  | .emit reg value => 0xB#4 ++ reg.number ++ value
  | .reserved low => 0b11#2 ++ low

end Sys2Proof
end

