-- ==== Sys2Proof/Machine/Operands.lean ====
section
/-! DEFINITION. Operand forms: cells, rows, the bounds check of indices (40_pixel_buffer.md R87), the pairs of the Register
Protocol (42_row_serializer.md R120 to R122), and the views of the ports (10_state.md R37, R38). -/

namespace Sys2Proof.Machine

/-- The bounds check of one index: 0 to 7 name a row or column, 8 to 15 none (40_pixel_buffer.md R87). -/
def inBounds (i : Nibble) : Option (Fin 8) :=
  if h : i.toNat < 8 then some ⟨i.toNat, h⟩ else none

/-- The operand of SET, TOGGLE and GET: a cell, none when either index is out of bounds (40_pixel_buffer.md R87). -/
def cellOperand (row col : Nibble) : Option (Fin 8 × Fin 8) :=
  match inBounds row, inBounds col with
  | some r, some c => some (r, c)
  | _, _ => none

/-- `rowBits(r)`, 00_scope.md R12. -/
def rowBits (fb : FrameBuffer) (r : Fin 8) : Byte := fb[r]

/-- The bit of column `c` in a row value: column 0 is the most significant (00_scope.md R12, 20_memory.md R41). -/
def columnBit (b : Byte) (c : Fin 8) : Bool := b.getLsbD (7 - c.val)

/-- `fb[r][c]`, 00_scope.md R11. -/
def cell (fb : FrameBuffer) (r c : Fin 8) : Bool := columnBit (rowBits fb r) c

/-- A row value whose only lit column is `c`. -/
def columnMask (c : Fin 8) : Byte := 0x80#8 >>> c.val

/-- A row value with column `c` written. -/
def setColumn (b : Byte) (c : Fin 8) (lit : Bool) : Byte :=
  if lit then b ||| columnMask c else b &&& ~~~columnMask c

/-- `fb[r][c] <- lit`, 00_scope.md R11. -/
def setCell (fb : FrameBuffer) (r c : Fin 8) (lit : Bool) : FrameBuffer :=
  fb.set r (setColumn (rowBits fb r) c lit)

/-- Every row registers its new value at once, each from its own old value (41_shift_engine.md R100, R109). -/
def mapRows (f : Byte → Byte) (fb : FrameBuffer) : FrameBuffer :=
  #v[f (rowBits fb 0), f (rowBits fb 1), f (rowBits fb 2), f (rowBits fb 3),
    f (rowBits fb 4), f (rowBits fb 5), f (rowBits fb 6), f (rowBits fb 7)]

/-- A framebuffer with every cell unlit. -/
def clearBuffer : FrameBuffer := Vector.replicate 8 0#8

/-- `v >> 1`, 00_scope.md R16. -/
def shr8 (v : Byte) : Byte := v >>> 1

/-- `(v << 1)[7:0]`, 00_scope.md R16. -/
def shl8 (v : Byte) : Byte := v <<< 1

/-- `ror8(v) = (v[0], v[7:1])`, 00_scope.md R16. -/
def ror8 (v : Byte) : Byte := v.extractLsb' 0 1 ++ v.extractLsb' 1 7

/-- `rol8(v) = (v[6:0], v[7])`, 00_scope.md R16. -/
def rol8 (v : Byte) : Byte := v.extractLsb' 0 7 ++ v.extractLsb' 7 1

/-- `fb_q`: row 0 in the least significant byte (10_state.md R38, 20_memory.md R43). -/
def fbQ (fb : FrameBuffer) : BitVec 64 :=
  rowBits fb 7 ++ rowBits fb 6 ++ rowBits fb 5 ++ rowBits fb 4 ++ rowBits fb 3 ++ rowBits fb 2 ++ rowBits fb 1 ++ rowBits fb 0

/-- `zext_8` of a device register's number (42_row_serializer.md R120). -/
def regByte (r : DevReg) : Byte := r.number.setWidth 8

/-- The pair `[register, value]` of `encode(register, value)` (42_row_serializer.md R121): the value is passed unchanged. -/
def commandPair (r : DevReg) (value : Byte) : Pair := { reg := regByte r, value := value }

/-- The pair of buffer row `k` in a FLUSH: row register `k + 1`, value `rowBits(k)` (42_row_serializer.md R122, R124). -/
def rowPair (fb : FrameBuffer) (k : Fin 8) : Pair := commandPair (.row k) (rowBits fb k)

/-- A pair on the bus port: the register byte in bits 15..8 (20_memory.md R42). -/
def Pair.word (p : Pair) : Word := p.reg ++ p.value

/-- The opcode of the command in progress, which the sequencing state tells (10_state.md R30, R32). -/
def Phase.opcode : Phase → Option Nibble
  | .idle => none
  | .flushing _ _ => some 0xA#4
  | .emitting => some 0xB#4

/-- `cmd_ready`: 1 exactly when `phase = Idle` (10_state.md R37). -/
def State.cmdReady (s : State) : Bool := s.phase = .idle

/-- `cmd_valid` (10_state.md R37). -/
def State.cmdValid (s : State) : Bool := s.cmd.isSome

/-- `bus_valid` (10_state.md R37). -/
def State.busValid (s : State) : Bool := s.offer.isSome

/-- `bus_data`, which has a value while a pair is offered (10_state.md R37; log entry 6). -/
def State.busData (s : State) : Option Word := s.offer.map Pair.word

/-- `fb_q`, always valid (10_state.md R38). -/
def State.fbQ (s : State) : BitVec 64 := Sys2Proof.Machine.fbQ s.fb

/-- `ScrollState.enabled`, true exactly in Running (60_exceptions.md R162). -/
def HostAgent.enabled (h : HostAgent) : Bool := h.mode = .running

end Sys2Proof.Machine
end

