-- ==== Sys2Proof/Machine/Ops.lean ====
section
/-! DEFINITION. The named operations: accepting, completing and raising (40_pixel_buffer.md R80, 60_exceptions.md R143), the
bus port (42_row_serializer.md R127), reset (70_reset_and_hazards.md R176, R177), and the start of every step. -/

namespace Sys2Proof.Machine

/-- `rsp.op <- w[15:12]` (40_pixel_buffer.md R80), the first write of a command's response, which it takes with the rest of
`rsp` in the step that completes it (10_state.md R24, D29; log entry 8). -/
def openCommand (op : Nibble) (s : State) : State :=
  { s with rsp := s.rsp.accepted op, rspValid := false }

/-- The end of a command that did not raise (40_pixel_buffer.md R80). -/
def complete (data : Byte) (s : State) : State :=
  { s with rsp := s.rsp.completed data, rspValid := true }

/-- `raise E(info)`, 60_exceptions.md R143: taking an error, the block's whole trap mechanism. There is no return from
it (R145, R146). -/
def raise (e : Err) (info : Byte) (s : State) : State :=
  { s with rsp := s.rsp.raised e info, rspValid := true, offer := none, waited := 0, phase := .idle }

/-- A word that decodes to no command (40_pixel_buffer.md R80, 60_exceptions.md R141). -/
def illegalCommand (op : Nibble) (s : State) : State :=
  raise .illegalCommand 0#8 (openCommand op s)

/-- The start of `BusWrite`: the pair goes on the bus port and the wait count starts at 0 (42_row_serializer.md R127). -/
def offerPair (p : Pair) (s : State) : State :=
  { s with offer := some p, waited := 0 }

/-- Acceptance of a FLUSH or an EMIT (42_row_serializer.md R124, R126): the phase is entered and the first pair offered. `rsp`
keeps the last response until the command completes (10_state.md R24, D29; log entry 8). -/
def startBus (phase : Phase) (p : Pair) (s : State) : State :=
  offerPair p { s with rspValid := false, phase := phase }

/-- How an offered pair, if there is one, is recorded when its offer ends. -/
def endingEvents (offer : Option Pair) (e : Ending) : List SinkEvent :=
  match offer with
  | some p => [{ pair := p, ending := e }]
  | none => []

/-- The end of `BusWrite`: `bus_valid <- 0` (42_row_serializer.md R127). -/
def endOffer (e : Ending) (s : State) : State :=
  { s with offer := none, waited := 0, sink := s.sink ++ endingEvents s.offer e }

/-- One turn of the loop of `BusWrite` (42_row_serializer.md R127): how the offer ends in this step, none when the block
waits on. -/
def busTurn (timeout : Option Nat) (ack err : Bool) (waited : Nat) : Option Ending :=
  if ack then some (if err then .err else .ok)
  else if timeout = some waited then some .timedOut
  else none

/-- One bus-wait step without an end (42_row_serializer.md R127). -/
def waitOn (s : State) : State := { s with waited := s.waited + 1 }

/-- The reset action (70_reset_and_hazards.md R176): every piece of state to its reset value in one step. The pair on the
bus port is withdrawn, and whether the Bus Sink received it is the argument (R177). The records of the two sinks, the
inputs and the draw counter are the environment's and stay (log entries 5 and 10). -/
def resetBlock (received : Bool) (s : State) : State :=
  { State.reset with
    inp := s.inp
    sink := s.sink ++ endingEvents s.offer (.withdrawn received)
    shown := s.shown
    draws := s.draws }

/-- An arriving request is queued (60_exceptions.md R161, R169). -/
def HostAgent.enqueue (h : HostAgent) (r : Option Request) : HostAgent :=
  { h with queue := h.queue ++ r.toList }

/-- The start of every step: the arriving request is queued, `rsp_valid` falls (it is 1 for one step, 10_state.md R37),
and the inputs of the next step are drawn (log entry 1). -/
def State.sample (s : State) : State :=
  { s with
    rspValid := false
    inp := Config.freeInputs s.draws
    host := s.host.enqueue s.inp.request
    draws := s.draws + 1 }

/-- The word on the command port is accepted and leaves it (10_state.md R37). -/
def State.takeCommand (s : State) : State := { s with cmd := none }

end Sys2Proof.Machine
end

