-- ==== Sys2Proof/Machine/PixelBuffer.lean ====
section
/-! DEFINITION. The pixel buffer commands (40_pixel_buffer.md R81 to R87) and the reserved opcodes (30_encoding.md R67). Each
meaning is the command step of R80 after decoding. -/

namespace Sys2Proof.Machine

/-- NOP, 40_pixel_buffer.md R81. -/
def execNop (s : State) : Outcome :=
  .next (complete 0#8 (openCommand 0x0#4 s))

/-- CLEAR, 40_pixel_buffer.md R82. -/
def execClear (s : State) : Outcome :=
  .next (complete 0#8 { openCommand 0x1#4 s with fb := clearBuffer })

/-- SET, 40_pixel_buffer.md R83. -/
def execSet (row col : Nibble) (lit : Bool) (s : State) : Outcome :=
  match cellOperand row col with
  | some (r, c) => .next (complete 0#8 { openCommand 0x2#4 s with fb := setCell s.fb r c lit })
  | none => .next (raise .outOfBounds 0#8 (openCommand 0x2#4 s))

/-- TOGGLE, 40_pixel_buffer.md R84. -/
def execToggle (row col : Nibble) (s : State) : Outcome :=
  match cellOperand row col with
  | some (r, c) => .next (complete 0#8 { openCommand 0x3#4 s with fb := setCell s.fb r c (!cell s.fb r c) })
  | none => .next (raise .outOfBounds 0#8 (openCommand 0x3#4 s))

/-- GET, 40_pixel_buffer.md R85: the data is 0x00 or 0x01 (D24). -/
def execGet (row col : Nibble) (s : State) : Outcome :=
  match cellOperand row col with
  | some (r, c) => .next (complete ((BitVec.ofBool (cell s.fb r c)).setWidth 8) (openCommand 0x4#4 s))
  | none => .next (raise .outOfBounds 0#8 (openCommand 0x4#4 s))

/-- ROWBITS, 40_pixel_buffer.md R86. -/
def execRowbits (row : Nibble) (s : State) : Outcome :=
  match inBounds row with
  | some r => .next (complete (rowBits s.fb r) (openCommand 0x5#4 s))
  | none => .next (raise .outOfBounds 0#8 (openCommand 0x5#4 s))

/-- A reserved opcode, 30_encoding.md R67: `IllegalCommand` with the opcode echoed, 0xC to 0xF (60_exceptions.md R141). -/
def execReserved (low : BitVec 14) (s : State) : Outcome :=
  .next (illegalCommand (Instr.reserved low).opcode s)

end Sys2Proof.Machine
end

