-- ==== Sys2Proof/Machine/RowSerializer.lean ====
section
/-! DEFINITION. FLUSH and EMIT (42_row_serializer.md R124 to R127): their acceptance, which offers the first pair, and one
bus-wait step of each. -/

namespace Sys2Proof.Machine

/-- FLUSH at its acceptance, 42_row_serializer.md R124: `phase <- Flushing(0, 0)`, and the pair of row 0 is offered. -/
def execFlush (s : State) : Outcome :=
  .next (startBus (.flushing 0 0) (rowPair s.fb 0) s)

/-- EMIT at its acceptance, 42_row_serializer.md R126: `phase <- Emitting`, and its pair is offered. -/
def execEmit (reg : DevReg) (value : Byte) (s : State) : Outcome :=
  .next (startBus .emitting (commandPair reg value) s)

/-- A pair count as response data (42_row_serializer.md R124). -/
def countByte (n : Fin 9) : Byte := BitVec.ofNat 8 n.val

/-- The pair of row `k` was answered `ok`, the `n + 1`-st of its FLUSH: the next row's pair is offered, or after row 7 the
FLUSH completes with the count (42_row_serializer.md R124). -/
def flushAdvance (k : Fin 8) (n : Fin 9) (s : State) : State :=
  if k = 7 then complete (countByte (n + 1)) (openCommand 0xA#4 { s with phase := .idle })
  else offerPair (rowPair s.fb (k + 1)) { s with phase := .flushing (k + 1) (n + 1) }

/-- One bus-wait step of a FLUSH (42_row_serializer.md R124, R125, R127). -/
def flushTurn (timeout : Option Nat) (ack err : Bool) (k : Fin 8) (n : Fin 9) (s : State) : State :=
  match busTurn timeout ack err s.waited with
  | none => waitOn s
  | some .ok => flushAdvance k n (endOffer .ok s)
  | some e => raise .busError (countByte n) (openCommand 0xA#4 (endOffer e s))

/-- One bus-wait step of an EMIT (42_row_serializer.md R126, R127). -/
def emitTurn (timeout : Option Nat) (ack err : Bool) (s : State) : State :=
  match busTurn timeout ack err s.waited with
  | none => waitOn s
  | some .ok => complete 1#8 (openCommand 0xB#4 { endOffer .ok s with phase := .idle })
  | some e => raise .busError 0#8 (openCommand 0xB#4 (endOffer e s))

end Sys2Proof.Machine
end

