-- ==== Sys2Proof/Machine/ShiftEngine.lean ====
section
/-! DEFINITION. The shift engine's commands (41_shift_engine.md R100 to R104). A rightward shift of the columns moves a row
value towards its least significant bit (R100). -/

namespace Sys2Proof.Machine

/-- The body the four shifts share: the same function on each row, written at once (41_shift_engine.md R100, R109). -/
def shiftRows (op : Nibble) (f : Byte → Byte) (s : State) : State :=
  complete 0#8 { openCommand op s with fb := mapRows f s.fb }

/-- SHRDROP, 41_shift_engine.md R101. -/
def execShrdrop (s : State) : Outcome := .next (shiftRows 0x6#4 shr8 s)

/-- SHRLOOP, 41_shift_engine.md R102. -/
def execShrloop (s : State) : Outcome := .next (shiftRows 0x7#4 ror8 s)

/-- SHLDROP, 41_shift_engine.md R103. Its absence is the decoder's matter (30_encoding.md R67). -/
def execShldrop (s : State) : Outcome := .next (shiftRows 0x8#4 shl8 s)

/-- SHLLOOP, 41_shift_engine.md R104. Its absence is the decoder's matter (30_encoding.md R67). -/
def execShlloop (s : State) : Outcome := .next (shiftRows 0x9#4 rol8 s)

end Sys2Proof.Machine
end

