-- ==== Sys2Proof/Machine/Dispatch.lean ====
section
/-! DEFINITION. One arm per command, each a direct call of its meaning. -/

namespace Sys2Proof.Machine

def exec (i : Instr) (s : State) : Host.Outcome State Fault Refusal :=
  match i with
  | .nop => Sys2Proof.Machine.execNop s
  | .clear => Sys2Proof.Machine.execClear s
  | .set row col lit => Sys2Proof.Machine.execSet row col lit s
  | .toggle row col => Sys2Proof.Machine.execToggle row col s
  | .get row col => Sys2Proof.Machine.execGet row col s
  | .rowbits row => Sys2Proof.Machine.execRowbits row s
  | .shrdrop => Sys2Proof.Machine.execShrdrop s
  | .shrloop => Sys2Proof.Machine.execShrloop s
  | .shldrop => Sys2Proof.Machine.execShldrop s
  | .shlloop => Sys2Proof.Machine.execShlloop s
  | .flush => Sys2Proof.Machine.execFlush s
  | .emit reg value => Sys2Proof.Machine.execEmit reg value s
  | .reserved low => Sys2Proof.Machine.execReserved low s

end Sys2Proof.Machine
end

