-- ==== Sys2Proof/Machine/HostAgent.lean ====
section
/-! DEFINITION. The host agent (60_exceptions.md R161 to R169, 70_reset_and_hazards.md R179, R180): one move of it, taken when
the block is idle and no word is on the command port. -/

namespace Sys2Proof.Machine

/-- EMIT `k` of the driver's setup sequence (70_reset_and_hazards.md R179, 30_encoding.md R74 `INIT`). -/
def setupCommand (k : Fin 5) : Instr :=
  match k.val with
  | 0 => .emit .scanLimit 7#8
  | 1 => .emit .decodeMode 0#8
  | 2 => .emit .displayTest 0#8
  | 3 => .emit .shutdown 1#8
  | _ => .emit .intensity 5#8

/-- The host puts a word on the command port, where it stays until accepted (60_exceptions.md R170). -/
def issueWord (w : Word) (job : Job) (s : State) : State :=
  { s with cmd := some w, host := { s.host with job := job } }

/-- The host issues a command. -/
def issue (i : Instr) (job : Job) (s : State) : State := issueWord (encode i) job s

/-- The host goes on with a job and issues nothing. -/
def goOn (job : Job) (s : State) : State := { s with host := { s.host with job := job } }

/-- The job to go back to after a served request: the interrupted wait, or none. -/
def resumed : Option Nat → Job
  | some millis => .waiting millis
  | none => .free

/-- Enter Stopped (60_exceptions.md R163): the tick in progress, if any, ends. -/
def stopLoop (s : State) : State := { s with host := { s.host with mode := .stopped, job := .free } }

/-- Surface an error to the owner or caller (60_exceptions.md R148, R167). -/
def surface (e : HostError) (s : State) : State := { s with host := { s.host with errors := s.host.errors ++ [e] } }

/-- A period is a legal request: 1 to `PERIOD_MAX` (60_exceptions.md R162, R168). -/
def legalPeriod (p : Params) (millis : Nat) : Bool := 1 ≤ millis && millis ≤ p.periodMax

/-- One request is served, `resume` being the wait it came in, if any (log entries 9, 11, 12).
DESIGN CHOICE, log entry 21: a start or a stop is judged against the state of the loop when it is served, not when it arrived.
A start has an effect only when the loop is Stopped and the setup succeeded (60_exceptions.md R163, R165); a stop cancels the wait
(R166); a speed change takes effect on the next tick (R168); a pixel request is a TOGGLE between ticks (R169); the setup
sequence runs once (70_reset_and_hazards.md R179). -/
def serve (p : Params) (r : Request) (resume : Option Nat) (s : State) : State :=
  match r with
  | .start =>
    if s.host.mode = .stopped ∧ s.host.setup = .done then
      { s with host := { s.host with mode := .running, job := .free } }
    else s
  | .stop => stopLoop s
  | .setSpeed millis => if legalPeriod p millis then { s with host := { s.host with period := millis } } else s
  | .togglePixel row col => issue (.toggle row col) (.serving resume) s
  | .beginSetup =>
    if s.host.setup = .pending ∧ resume = none then issue (setupCommand 0) (.setup 0) s else s
  | .command w => issueWord w (.serving resume) s

/-- The response to EMIT `k` of the setup sequence (70_reset_and_hazards.md R180): after the fifth OK the loop starts
(60_exceptions.md R163); after an error it never does. -/
def setupResponse (k : Fin 5) (s : State) : State :=
  if s.rsp.status = .ok then
    if k = 4 then { s with host := { s.host with setup := .done, mode := .running, job := .free } }
    else issue (setupCommand (k + 1)) (.setup (k + 1)) s
  else surface .setupFailed { s with host := { s.host with setup := .failed, job := .free } }

/-- The response to the FLUSH of a tick (60_exceptions.md R164, R167): on an error the loop stops and nothing is
published, else the snapshot goes to the Display Sink and the tick ends. -/
def tickResponse (s : State) : State :=
  if s.rsp.status = .busError then surface .tickBusError (stopLoop s)
  else goOn .free { s with shown := s.shown ++ [s.fbQ] }

/-- The response to a served request's command: an error is surfaced to its caller (60_exceptions.md R145), and a
`BusError` stops a running loop (R163; log entry 13). -/
def servedResponse (resume : Option Nat) (s : State) : State :=
  match s.rsp.status with
  | .ok => goOn (resumed resume) s
  | .busError => surface (.requestFailed .busError) (stopLoop s)
  | st => surface (.requestFailed st) (goOn (resumed resume) s)

/-- The oldest queued request is taken out and served. -/
def serveNext (p : Params) (r : Request) (rest : List Request) (resume : Option Nat) (s : State) : State :=
  serve p r resume { s with host := { s.host with queue := rest } }

/-- One move of the host agent. `elapsed`: the period it waits for has elapsed. `responded`: `rsp_valid`, the command it
issued has completed. Requests are served between ticks and during the wait (60_exceptions.md R166, R169); a new tick
reads the period at its start and waits, then issues SHRLOOP, and on its response FLUSH, with nothing between (R164).
DESIGN CHOICE, log entry 22: a free host serves every request whatever its setup, so also before the setup sequence and after it
failed. DESIGN CHOICE, log entry 14: a request is served before an elapsed period is looked at. -/
def hostMove (p : Params) (elapsed responded : Bool) (s : State) : State :=
  match s.host.job with
  | .free =>
    match s.host.queue with
    | r :: rest => serveNext p r rest none s
    | [] => if s.host.mode = .running then goOn (.waiting s.host.period) s else s
  | .waiting millis =>
    match s.host.queue with
    | r :: rest => serveNext p r rest (some millis) s
    | [] => if elapsed then issue .shrloop .tickShift s else s
  | .setup k => if responded then setupResponse k s else s
  | .tickShift => if responded then issue .flush .tickFlush s else s
  | .tickFlush => if responded then tickResponse s else s
  | .serving resume => if responded then servedResponse resume s else s

end Sys2Proof.Machine
end

