-- ==== Sys2Proof/Machine/Turn.lean ====
section
/-! DEFINITION. What one step does, for any parameters: the reset line first, then the block (a bus-wait step while it is busy,
else the word on its command port), else one move of the host agent (log entry 15). -/

namespace Sys2Proof.Machine

/-- The block accepts a word while idle (40_pixel_buffer.md R80): it runs the command the word decodes to, or raises
`IllegalCommand`. -/
def acceptWord (p : Params) (w : Word) (s : State) : Outcome :=
  match decodeWith p.leftShiftPresent w with
  | .ok i => exec i s.takeCommand
  | .error _ => .next (illegalCommand (opField w) s.takeCommand)

/-- One step of the machine with parameters `p`. -/
def stepWith (p : Params) (s : State) : Outcome :=
  if s.inp.rst then .next (resetBlock (Config.freeReceived s.draws) s.sample)
  else
    match s.phase with
    | .flushing k n => .next (flushTurn p.busTimeout s.inp.busAck s.inp.busErr k n s.sample)
    | .emitting => .next (emitTurn p.busTimeout s.inp.busAck s.inp.busErr s.sample)
    | .idle =>
      match s.cmd with
      | some w => acceptWord p w s.sample
      | none => .next (hostMove p s.inp.elapsed s.rspValid s.sample)

end Sys2Proof.Machine
end

