-- ==== Sys2Proof/Machine/Step.lean ====
section
/-! DEFINITION. The step of this machine, and the state whose next step runs a given command. -/

namespace Sys2Proof.Machine

/-- One step of this machine. -/
def step (s : State) : Host.Outcome State Fault Refusal := stepWith Config.params s

/-- `s` with a command word on the command port of an idle block whose reset line is low, so that the next step accepts it
(log entry 9). The bits above `nbits` are 0, and a command is one 16-bit word (30_encoding.md R60). -/
def State.withFetchWord (s : State) (nbits w : Nat) : State :=
  { s with
    cmd := some (BitVec.ofNat 16 (w % 2 ^ nbits))
    inp := { s.inp with rst := false }
    phase := .idle
    offer := none
    waited := 0 }

end Sys2Proof.Machine
end

