-- ==== Sys2Proof/Machine/Assembler.lean ====
section
/-! DEFINITION. The assembler syntax of 30_encoding.md R73 and the pseudo-instructions of R74: one line of text to the commands
it stands for. The machine does not use it; conventions the rules leave open are log entry 18. -/

namespace Sys2Proof.Machine

/-- A pseudo-instruction, 30_encoding.md R74. -/
inductive Pseudo where
  | light (row col : Nibble)
  | unlight (row col : Nibble)
  | tick
  | init
deriving DecidableEq, Repr

/-- The expansion of a pseudo-instruction, 30_encoding.md R74: separate commands, each with its own response. -/
def Pseudo.expand : Pseudo → List Instr
  | .light row col => [.set row col true]
  | .unlight row col => [.set row col false]
  | .tick => [.shrloop, .flush]
  | .init =>
    [.emit .scanLimit 7#8, .emit .decodeMode 0#8, .emit .displayTest 0#8, .emit .shutdown 1#8, .emit .intensity 5#8]

/-- Why a line is no line of the assembler. -/
inductive AsmError where
  /-- The mnemonic is none of 30_encoding.md R73 and R74. -/
  | unknownMnemonic
  /-- The mnemonic takes another number of operands. -/
  | operandCount
  /-- An operand is neither a decimal nor a `0x` hexadecimal number (nor, for `reg`, a register symbol). -/
  | badNumber
  /-- The number is outside the range of 30_encoding.md R73. -/
  | outOfRange
  /-- The register is 0xD or 0xE, which the assembler refuses (30_encoding.md R73). -/
  | unlistedRegister
deriving DecidableEq, Repr

/-- A blank character. -/
def isBlank (c : Char) : Bool := c = ' ' || c = '\t'

/-- The text without blanks at either end. -/
def trimBlanks (cs : List Char) : List Char :=
  ((cs.dropWhile isBlank).reverse.dropWhile isBlank).reverse

/-- The line without its comment: `;` starts one (30_encoding.md R73). -/
def withoutComment (cs : List Char) : List Char := cs.takeWhile (· ≠ ';')

/-- Cut a text at its commas (30_encoding.md R73). -/
def cutAtCommas : List Char → List (List Char)
  | [] => [[]]
  | c :: cs =>
    match cutAtCommas cs with
    | [] => [[c]]
    | h :: t => if c = ',' then [] :: h :: t else (c :: h) :: t

/-- The operands of a line's text after its mnemonic: none when it is blank. -/
def operandTexts (cs : List Char) : List (List Char) :=
  if trimBlanks cs = [] then [] else (cutAtCommas cs).map trimBlanks

/-- The value of a digit in base 16. -/
def digitValue (c : Char) : Option Nat :=
  if '0' ≤ c ∧ c ≤ '9' then some (c.toNat - '0'.toNat)
  else if 'a' ≤ c ∧ c ≤ 'f' then some (c.toNat - 'a'.toNat + 10)
  else if 'A' ≤ c ∧ c ≤ 'F' then some (c.toNat - 'A'.toNat + 10)
  else none

/-- The value of a run of digits in a base, from the value of what stands before them. -/
def digitsValue (base : Nat) : Nat → List Char → Option Nat
  | acc, [] => some acc
  | acc, c :: cs =>
    match digitValue c with
    | some d => if d < base then digitsValue base (acc * base + d) cs else none
    | none => none

/-- A number, decimal or `0x` hexadecimal (30_encoding.md R73). -/
def numberOf : List Char → Option Nat
  | [] => none
  | ['0', 'x'] => none
  | '0' :: 'x' :: digits => digitsValue 16 0 digits
  | digits => digitsValue 10 0 digits

/-- A number of at most `max`. -/
def boundedNumber (max : Nat) (cs : List Char) : Except AsmError Nat :=
  match numberOf cs with
  | some n => if n ≤ max then .ok n else .error .outOfRange
  | none => .error .badNumber

/-- An index operand, 0 to 15: 8 to 15 assemble (30_encoding.md R73). -/
def indexOf (cs : List Char) : Except AsmError Nibble :=
  (boundedNumber 15 cs).map (BitVec.ofNat 4)

/-- The operand `lit`, 0 or 1. -/
def litOf (cs : List Char) : Except AsmError Bool := (boundedNumber 1 cs).map (· = 1)

/-- The operand `value`, 0 to 255. -/
def valueOf (cs : List Char) : Except AsmError Byte := (boundedNumber 255 cs).map (BitVec.ofNat 8)

/-- The assembler's symbol of a device register, 30_encoding.md R73. -/
def registerSymbols : List (List Char × DevReg) :=
  [(['N', 'O', 'O', 'P'], .noop),
   (['R', 'O', 'W', '1'], .row 0), (['R', 'O', 'W', '2'], .row 1), (['R', 'O', 'W', '3'], .row 2),
   (['R', 'O', 'W', '4'], .row 3), (['R', 'O', 'W', '5'], .row 4), (['R', 'O', 'W', '6'], .row 5),
   (['R', 'O', 'W', '7'], .row 6), (['R', 'O', 'W', '8'], .row 7),
   (['D', 'E', 'C', 'O', 'D', 'E'], .decodeMode),
   (['I', 'N', 'T', 'E', 'N', 'S', 'I', 'T', 'Y'], .intensity),
   (['S', 'C', 'A', 'N', 'L', 'I', 'M', 'I', 'T'], .scanLimit),
   (['S', 'H', 'U', 'T', 'D', 'O', 'W', 'N'], .shutdown),
   (['D', 'I', 'S', 'P', 'T', 'E', 'S', 'T'], .displayTest)]

/-- The operand `reg`: a register symbol, or 0 to 15 except 0xD and 0xE (30_encoding.md R73). -/
def registerOf (cs : List Char) : Except AsmError DevReg :=
  match registerSymbols.lookup cs with
  | some r => .ok r
  | none =>
    match indexOf cs with
    | .error e => .error e
    | .ok n =>
      match DevReg.ofNumber n with
      | some r => .ok r
      | none => .error .unlistedRegister

/-- A line with no operand. -/
def noOperand (is : List Instr) (ops : List (List Char)) : Except AsmError (List Instr) :=
  match ops with
  | [] => .ok is
  | _ => .error .operandCount

/-- A line with a cell operand. -/
def cellLine (f : Nibble → Nibble → List Instr) (ops : List (List Char)) : Except AsmError (List Instr) :=
  match ops with
  | [r, c] => do .ok (f (← indexOf r) (← indexOf c))
  | _ => .error .operandCount

/-- `SET row, col, lit`. -/
def setLine (ops : List (List Char)) : Except AsmError (List Instr) :=
  match ops with
  | [r, c, l] => do .ok [.set (← indexOf r) (← indexOf c) (← litOf l)]
  | _ => .error .operandCount

/-- `ROWBITS row`. -/
def rowLine (ops : List (List Char)) : Except AsmError (List Instr) :=
  match ops with
  | [r] => do .ok [.rowbits (← indexOf r)]
  | _ => .error .operandCount

/-- `EMIT reg, value`. -/
def emitLine (ops : List (List Char)) : Except AsmError (List Instr) :=
  match ops with
  | [r, v] => do .ok [.emit (← registerOf r) (← valueOf v)]
  | _ => .error .operandCount

/-- The mnemonics of 30_encoding.md R73 and R74 with what each makes of its operands. -/
def assembleOperands (mnemonic : List Char) (ops : List (List Char)) : Except AsmError (List Instr) :=
  match mnemonic with
  | ['N', 'O', 'P'] => noOperand [.nop] ops
  | ['C', 'L', 'E', 'A', 'R'] => noOperand [.clear] ops
  | ['S', 'E', 'T'] => setLine ops
  | ['T', 'O', 'G', 'G', 'L', 'E'] => cellLine (fun r c => [.toggle r c]) ops
  | ['G', 'E', 'T'] => cellLine (fun r c => [.get r c]) ops
  | ['R', 'O', 'W', 'B', 'I', 'T', 'S'] => rowLine ops
  | ['S', 'H', 'R', 'D', 'R', 'O', 'P'] => noOperand [.shrdrop] ops
  | ['S', 'H', 'R', 'L', 'O', 'O', 'P'] => noOperand [.shrloop] ops
  | ['S', 'H', 'L', 'D', 'R', 'O', 'P'] => noOperand [.shldrop] ops
  | ['S', 'H', 'L', 'L', 'O', 'O', 'P'] => noOperand [.shlloop] ops
  | ['F', 'L', 'U', 'S', 'H'] => noOperand [.flush] ops
  | ['E', 'M', 'I', 'T'] => emitLine ops
  | ['L', 'I', 'G', 'H', 'T'] => cellLine (fun r c => (Pseudo.light r c).expand) ops
  | ['U', 'N', 'L', 'I', 'G', 'H', 'T'] => cellLine (fun r c => (Pseudo.unlight r c).expand) ops
  | ['T', 'I', 'C', 'K'] => noOperand Pseudo.tick.expand ops
  | ['I', 'N', 'I', 'T'] => noOperand Pseudo.init.expand ops
  | _ => .error .unknownMnemonic

/-- One line of assembly (30_encoding.md R73) to the commands it stands for: none for a blank line or a comment. -/
def assembleLine (line : List Char) : Except AsmError (List Instr) :=
  let text := trimBlanks (withoutComment line)
  if text = [] then .ok []
  else assembleOperands (text.takeWhile (fun c => !isBlank c)) (operandTexts (text.dropWhile (fun c => !isBlank c)))

end Sys2Proof.Machine
end

