-- ==== Sys2Proof/Safety.lean ====
section
/-! DEFINITION. What a safe run of the machine keeps (the invariants), and the terms statements are written in: the frames of
a command, its two kinds of response, runs of commands, and runs under given answers of the Bus Sink. -/

namespace Sys2Proof

/-- A row's match and mask in the opcode map, 30_encoding.md R66 (the reserved row's from spec/opcode_table.json). -/
def Instr.matchAndMask : Instr → Word × Word
  | .nop => (0x0000#16, 0xFFFF#16)
  | .clear => (0x1000#16, 0xFFFF#16)
  | .set _ _ _ => (0x2000#16, 0xF00E#16)
  | .toggle _ _ => (0x3000#16, 0xF00F#16)
  | .get _ _ => (0x4000#16, 0xF00F#16)
  | .rowbits _ => (0x5000#16, 0xF0FF#16)
  | .shrdrop => (0x6000#16, 0xFFFF#16)
  | .shrloop => (0x7000#16, 0xFFFF#16)
  | .shldrop => (0x8000#16, 0xFFFF#16)
  | .shlloop => (0x9000#16, 0xFFFF#16)
  | .flush => (0xA000#16, 0xFFFF#16)
  | .emit _ _ => (0xB000#16, 0xF000#16)
  | .reserved _ => (0xC000#16, 0xC000#16)

/-- The commands that write the framebuffer (10_state.md R21). -/
def Instr.writesBuffer : Instr → Bool
  | .clear => true
  | .set _ _ _ => true
  | .toggle _ _ => true
  | .shrdrop => true
  | .shrloop => true
  | .shldrop => true
  | .shlloop => true
  | .nop => false
  | .get _ _ => false
  | .rowbits _ => false
  | .flush => false
  | .emit _ _ => false
  | .reserved _ => false

/-- The commands that read the framebuffer without any other effect than a response (20_memory.md R48). -/
def Instr.onlyReads : Instr → Bool
  | .get _ _ => true
  | .rowbits _ => true
  | .nop => false
  | .clear => false
  | .set _ _ _ => false
  | .toggle _ _ => false
  | .shrdrop => false
  | .shrloop => false
  | .shldrop => false
  | .shlloop => false
  | .flush => false
  | .emit _ _ => false
  | .reserved _ => false

end Sys2Proof

namespace Sys2Proof.Machine

/-- The bus port agrees with the sequencing state (10_state.md R30, R32; 42_row_serializer.md R122 to R126): idle, no pair is
offered; in a FLUSH the pair of row `k` is offered, `n = k`; in an EMIT a pair of the Register Protocol is. -/
def PortInv (s : State) : Prop :=
  match s.phase with
  | .idle => s.offer = none ∧ s.waited = 0
  | .flushing k n => n.val = k.val ∧ s.offer = some (rowPair s.fb k)
  | .emitting => ∃ reg value, s.offer = some (commandPair reg value)

/-- The invariant of the block: its bus port agrees with its phase, the wait count never exceeds `BUS_TIMEOUT`
(42_row_serializer.md R127), an error status is never without the sticky flag (10_state.md R26), and a command that has
just completed leaves the block idle. -/
def BlockInv (p : Params) (s : State) : Prop :=
  PortInv s ∧ (∀ limit, p.busTimeout = some limit → s.waited ≤ limit) ∧
    (s.rsp.status ≠ .ok → s.rsp.sticky = true) ∧ (s.rspValid = true → s.phase = .idle)

/-- The word `w` the host issued has its one response still to come or just arrived (40_pixel_buffer.md R80): it is on the
port of an idle block, or it is in progress, or it has completed in the step just past. -/
def Outstanding (s : State) (w : Word) : Prop :=
  (s.phase = .idle ∧ s.cmd = some w) ∨
    (s.cmd = none ∧ (s.phase.opcode = some (opField w) ∨ (s.phase = .idle ∧ s.rspValid = true ∧ s.rsp.op = opField w)))

/-- The host's job agrees with the block: in a tick the word outstanding is the tick's SHRLOOP or its FLUSH and no other
(60_exceptions.md R164, R169), in the setup it is the EMIT in turn (70_reset_and_hazards.md R179). -/
def JobInv (s : State) : Prop :=
  match s.host.job with
  | .free => s.cmd = none ∧ s.phase = .idle
  | .waiting _ => s.cmd = none ∧ s.phase = .idle ∧ s.host.mode = .running
  | .setup k => s.host.setup = .pending ∧ s.host.mode = .stopped ∧ Outstanding s (encode (setupCommand k))
  | .tickShift => s.host.mode = .running ∧ Outstanding s 0x7000#16
  | .tickFlush => s.host.mode = .running ∧ Outstanding s 0xA000#16
  | .serving resume => (resume ≠ none → s.host.mode = .running) ∧ ∃ w, Outstanding s w

/-- The invariant of the host agent: its job agrees with the block, it runs only after a successful setup
(60_exceptions.md R163), and its period is positive, the default or a legal one (R162). -/
def HostInv (p : Params) (s : State) : Prop :=
  JobInv s ∧ (s.host.mode = .running → s.host.setup = .done) ∧
    1 ≤ s.host.period ∧ (s.host.period = Config.periodDefault ∨ s.host.period ≤ p.periodMax)

/-- Phase, offered pair and wait count are the same. -/
def SameSequencing (s t : State) : Prop :=
  t.phase = s.phase ∧ t.offer = s.offer ∧ t.waited = s.waited

/-- The command port, the inputs, the host agent and the model's own records are the same. -/
def SameEnvironment (s t : State) : Prop :=
  t.cmd = s.cmd ∧ t.inp = s.inp ∧ t.host = s.host ∧ t.sink = s.sink ∧ t.shown = s.shown ∧ t.draws = s.draws

/-- `t` holds the response of a command with opcode `op` that completed OK with `data`: `sticky` as in `s`
(40_pixel_buffer.md R80). -/
def CompletedOk (s t : State) (op : Nibble) (data : Byte) : Prop :=
  t.rsp = { op := op, sticky := s.rsp.sticky, status := .ok, data := data } ∧ t.rspValid = true

/-- `t` holds the response of a command with opcode `op` that raised an error (60_exceptions.md R143): status, `info`,
`sticky` set, the bus port free, the block idle. -/
def RaisedError (t : State) (op : Nibble) (e : Err) (info : Byte) : Prop :=
  t.rsp = { op := op, sticky := true, status := e.status, data := info } ∧ t.rspValid = true ∧
    t.phase = .idle ∧ t.offer = none ∧ t.waited = 0

/-- The state a step that accepts a word hands to its command: the inputs sampled, the word off the port. -/
def State.accepting (s : State) : State := s.sample.takeCommand

/-- The commands of a list run one after the other, stopping where one does not answer a next state. -/
def execAll : List Instr → State → Outcome
  | [], s => .next s
  | i :: rest, s =>
    match exec i s with
    | .next t => execAll rest t
    | o => o

/-- What the Bus Sink does in one bus-wait step (42_row_serializer.md R127). -/
inductive SinkReply where
  | notYet
  | ok
  | err
deriving DecidableEq, Repr

/-- The input ports with a reply of the Bus Sink on them and the reset line low. -/
def SinkReply.onPorts (r : SinkReply) (i : Inputs) : Inputs :=
  { i with rst := false, busAck := r ≠ .notYet, busErr := r = .err }

/-- One step under a given reply of the Bus Sink, without reset. -/
def stepReplied (p : Params) (r : SinkReply) (s : State) : Outcome :=
  stepWith p { s with inp := r.onPorts s.inp }

/-- Steps under given replies of the Bus Sink, one reply a step, without reset; the host's inputs stay free. -/
def runReplied (p : Params) : List SinkReply → State → Outcome
  | [], s => .next s
  | r :: rest, s =>
    match stepReplied p r s with
    | .next t => runReplied p rest t
    | o => o

/-- The Bus Sink answers `ok` after `n` steps without an answer. -/
def okAfter (n : Nat) : List SinkReply := List.replicate n .notYet ++ [.ok]

/-- The Bus Sink answers `err` after `n` steps without an answer. -/
def errAfter (n : Nat) : List SinkReply := List.replicate n .notYet ++ [.err]

/-- A wait of `n` steps without an answer does not reach `BUS_TIMEOUT`. -/
def WithinTimeout (p : Params) (n : Nat) : Prop := ∀ limit, p.busTimeout = some limit → n ≤ limit

/-- The replies of a setup sequence, EMIT `k` answered `ok` after `waits k` steps without an answer: for each EMIT its acceptance,
its bus-wait steps, and the host's move on its response. -/
def setupReplies (waits : Fin 5 → Nat) : List SinkReply :=
  (List.finRange 5).flatMap fun k => .notYet :: okAfter (waits k) ++ [.notYet]

/-- The index operand that names row or column `r` (30_encoding.md R63). -/
def indexNibble (r : Fin 8) : Nibble := BitVec.ofNat 4 r.val

/-- An index operand outside the cell space, 8 to 15 (40_pixel_buffer.md R87). -/
def OutOfRange (i : Nibble) : Prop := 7 < i.toNat

/-- The bits marked `zero` in the words of an opcode (30_encoding.md R61), written from its formats. -/
def zeroBits (op : Nibble) : Word :=
  match op.toNat with
  | 0x2 => 0x000E#16
  | 0x3 => 0x000F#16
  | 0x4 => 0x000F#16
  | 0x5 => 0x00FF#16
  | 0xB => 0x0000#16
  | _ => 0x0FFF#16

/-- The causes of `IllegalCommand` as 60_exceptions.md R141 lists them: a reserved opcode, a left shift of a block without
them, a 1 in a `zero` field, an EMIT with register 0xD or 0xE. -/
def NoCommand (leftShift : Bool) (w : Word) : Prop :=
  0xC ≤ (opField w).toNat ∨
    ((opField w = 0x8#4 ∨ opField w = 0x9#4) ∧ leftShift = false) ∨
    ((opField w).toNat < 0xC ∧ w &&& zeroBits (opField w) ≠ 0#16) ∨
    (opField w = 0xB#4 ∧ (rowField w = 0xD#4 ∨ rowField w = 0xE#4))

/-- The block accepts the word `w` in the coming step (10_state.md R37). -/
def Accepts (s : State) (w : Word) : Prop := s.inp.rst = false ∧ s.phase = .idle ∧ s.cmd = some w

/-- The coming step raises `IllegalCommand` with opcode `op` echoed, and changes nothing of the block but its response
(60_exceptions.md R141). -/
def RaisesIllegal (p : Params) (s : State) (op : Nibble) : Prop :=
  ∃ t, stepWith p s = .next t ∧ RaisedError t op .illegalCommand 0#8 ∧ t.fb = s.fb ∧ t.sink = s.sink

/-- Accepting a word with opcode `op` and a 1 among `bits` raises `IllegalCommand` (30_encoding.md R68). -/
def RefusesBits (op : Nibble) (bits : Word) : Prop :=
  ∀ (p : Params) (s : State) (w : Word), Accepts s w → opField w = op → w &&& bits ≠ 0#16 → RaisesIllegal p s op

/-- Accepting a word with opcode `op` raises `IllegalCommand` in a block without left shifts (30_encoding.md R67). -/
def RefusedWithoutLeftShift (op : Nibble) : Prop :=
  ∀ (p : Params) (s : State) (w : Word), p.leftShiftPresent = false → Accepts s w → opField w = op → RaisesIllegal p s op

/-- The coming step is a move of the host agent (log entry 15). -/
def HostTurn (s : State) : Prop := s.inp.rst = false ∧ s.phase = .idle ∧ s.cmd = none

/-- The requests the host agent has in the coming step: those queued and the one that arrives. -/
def pendingRequests (s : State) : List Request := s.host.queue ++ s.inp.request.toList

/-- The events of the first `j` pairs of a FLUSH of `fb`, each answered `ok` (42_row_serializer.md R124). -/
def okEvents (fb : FrameBuffer) (j : Nat) : List SinkEvent :=
  ((List.finRange 8).take j).map fun k =>
    { pair := { reg := BitVec.ofNat 8 (k.val + 1), value := rowBits fb k }, ending := .ok }

/-- The first `j` pairs of a FLUSH answered `ok`, pair `k` after `waits k` steps without an answer. -/
def okReplies (waits : Fin 8 → Nat) (j : Nat) : List SinkReply :=
  ((List.finRange 8).take j).flatMap fun k => okAfter (waits k)

end Sys2Proof.Machine
end

