-- ==== Sys2Proof/Certificates/Slice0/Obligations.lean ====
section
/-! DEFINITION. The statements for the provers, each a Prop. -/

open Sys2Proof Sys2Proof.Machine

/-- 10_state.md R35: the block's reset values, and the word `rsp` reads, the same as after a NOP on a clean block. -/
def Obligations.ResetValuesOfTheBlock : Prop :=
  (∀ r c, cell State.reset.fb r c = false) ∧
    State.reset.rsp = { op := 0#4, sticky := false, status := .ok, data := 0#8 } ∧
    State.reset.phase = .idle ∧ State.reset.offer = none ∧ State.reset.busValid = false ∧
    State.reset.rspWord = 0x0000#16 ∧
    ∃ t, exec .nop State.reset = .next t ∧ t.rspWord = State.reset.rspWord

/-- 60_exceptions.md R162, R163: the host agent starts Stopped with the default period of 20 ms. -/
def Obligations.HostStartsStopped : Prop :=
  State.reset.host.mode = .stopped ∧ State.reset.host.enabled = false ∧ State.reset.host.period = 20 ∧
    State.reset.host.setup = .pending

/-- 70_reset_and_hazards.md R176: the reset action, from any state, in one step. -/
def Obligations.RstResetsTheBlock : Prop :=
  ∀ (p : Params) (s : State), s.inp.rst = true →
    ∃ t, stepWith p s = .next t ∧ (∀ r c, cell t.fb r c = false) ∧
      t.rsp = { op := 0#4, sticky := false, status := .ok, data := 0#8 } ∧ t.rspWord = 0x0000#16 ∧
      t.phase = .idle ∧ t.offer = none ∧ t.busValid = false ∧ t.cmdReady = true ∧ t.fbQ = 0#64

/-- 70_reset_and_hazards.md R177: a reset in a FLUSH or EMIT gives no response and withdraws the pair; whether it was
received is a free value. -/
def Obligations.RstAbandonsTheBusCommand : Prop :=
  ∀ (p : Params) (s : State) (pair : Pair), s.inp.rst = true → s.phase ≠ .idle → s.offer = some pair →
    ∃ t, stepWith p s = .next t ∧ t.rspValid = false ∧ t.phase = .idle ∧ t.offer = none ∧
      t.sink = s.sink ++ [{ pair := pair, ending := .withdrawn (Config.freeReceived s.draws) }]

/-- 40_pixel_buffer.md R80: a step that accepts a word runs the command it decodes to. What the step does around it: the
word leaves the port, `rsp_valid` falls, the arriving request is queued, the next inputs are drawn. -/
def Obligations.StepRunsTheDecodedCommand : Prop :=
  (∀ (p : Params) (s : State) (w : Word) (i : Instr), Accepts s w → decodeWith p.leftShiftPresent w = .ok i →
    stepWith p s = exec i s.accepting) ∧
  (∀ (s : State) (w : Word) (i : Instr), Accepts s w → decode w = .ok i → step s = exec i s.accepting) ∧
  (∀ s : State, s.accepting =
    { s with
      rspValid := false
      cmd := none
      inp := Config.freeInputs s.draws
      host := { s.host with queue := pendingRequests s }
      draws := s.draws + 1 })

/-- 60_exceptions.md R141, 40_pixel_buffer.md R80: the words with one of the causes, and only those, raise `IllegalCommand`,
with the opcode echoed and nothing else of the block changed. -/
def Obligations.WordsThatAreNoCommand : Prop :=
  (∀ (p : Params) (s : State) (w : Word), Accepts s w → NoCommand p.leftShiftPresent w →
    RaisesIllegal p s (opField w)) ∧
  (∀ (leftShift : Bool) (w : Word), ¬ NoCommand leftShift w →
    ∃ i, decodeWith leftShift w = .ok i ∧ ∀ low, i ≠ .reserved low)

/-- 30_encoding.md R66, R71: decoding and encoding agree, both ways, for every word and every command. -/
def Obligations.DecodeInvertsEncode : Prop :=
  ∀ (leftShift : Bool) (w : Word) (i : Instr),
    decodeWith leftShift w = .ok i ↔ i.wellFormed leftShift = true ∧ encode i = w

/-- 30_encoding.md R66: a word selects the command of a row exactly when it agrees with the row's match under its mask, and
for EMIT its register is neither 0xD nor 0xE. -/
def Obligations.OpcodeMapSelects : Prop :=
  ∀ (leftShift : Bool) (w : Word) (row : Instr), row.wellFormed leftShift = true →
    ((∃ i, decodeWith leftShift w = .ok i ∧ i.matchAndMask = row.matchAndMask) ↔
      w &&& row.matchAndMask.2 = row.matchAndMask.1 ∧
        (row.opcode = 0xB#4 → rowField w ≠ 0xD#4 ∧ rowField w ≠ 0xE#4))

/-- 30_encoding.md R75: the sample words. That 0xC000, which R75 lists as Illegal, decodes to the reserved row is the model's
choice (log entry 17). -/
def Obligations.SampleWordsDecode : Prop :=
  decode 0x0000#16 = .ok .nop ∧ decode 0x1000#16 = .ok .clear ∧
    decode 0x2001#16 = .ok (.set 0#4 0#4 true) ∧ decode 0x2251#16 = .ok (.set 2#4 5#4 true) ∧
    decode 0x2770#16 = .ok (.set 7#4 7#4 false) ∧ decode 0x2801#16 = .ok (.set 8#4 0#4 true) ∧
    decode 0x3340#16 = .ok (.toggle 3#4 4#4) ∧ decode 0x4340#16 = .ok (.get 3#4 4#4) ∧
    decode 0x5500#16 = .ok (.rowbits 5#4) ∧ decode 0x6000#16 = .ok .shrdrop ∧ decode 0x7000#16 = .ok .shrloop ∧
    decode 0x8000#16 = .ok .shldrop ∧ decode 0x9000#16 = .ok .shlloop ∧ decode 0xA000#16 = .ok .flush ∧
    decode 0xBB07#16 = .ok (.emit .scanLimit 0x07#8) ∧ decode 0xBA05#16 = .ok (.emit .intensity 0x05#8) ∧
    decode 0xC000#16 = .ok (.reserved 0#14) ∧
    decode 0xBD00#16 = .error .unlistedRegister ∧ decode 0x2003#16 = .error .zeroField

/-- 42_row_serializer.md R120: the device register map, its assembler symbols, and the two numbers outside it. -/
def Obligations.DeviceRegisterMap : Prop :=
  registerSymbols.map (fun e => (e.1, e.2.number)) =
    [("NOOP".toList, 0x0#4), ("ROW1".toList, 0x1#4), ("ROW2".toList, 0x2#4), ("ROW3".toList, 0x3#4),
      ("ROW4".toList, 0x4#4), ("ROW5".toList, 0x5#4), ("ROW6".toList, 0x6#4), ("ROW7".toList, 0x7#4),
      ("ROW8".toList, 0x8#4), ("DECODE".toList, 0x9#4), ("INTENSITY".toList, 0xA#4),
      ("SCANLIMIT".toList, 0xB#4), ("SHUTDOWN".toList, 0xC#4), ("DISPTEST".toList, 0xF#4)] ∧
    (∀ r : DevReg, r ∈ registerSymbols.map Prod.snd) ∧
    (∀ n : Nibble, DevReg.ofNumber n = none ↔ n = 0xD#4 ∨ n = 0xE#4) ∧
    (∀ r : DevReg, (regByte r).toNat = r.number.toNat)

/-- 30_encoding.md R74: the expansions of the four pseudo-instructions. -/
def Obligations.PseudoExpansions : Prop :=
  (∀ row col, (Pseudo.light row col).expand = [.set row col true]) ∧
    (∀ row col, (Pseudo.unlight row col).expand = [.set row col false]) ∧
    Pseudo.tick.expand.map encode = [0x7000#16, 0xA000#16] ∧
    Pseudo.init.expand.map encode = [0xBB07#16, 0xB900#16, 0xBF00#16, 0xBC01#16, 0xBA05#16] ∧
    Pseudo.init.expand = (List.finRange 5).map setupCommand

/-- 20_memory.md R43, 10_state.md R38: the snapshot port shows row `r` in its byte `r`, and each cell at its bit. -/
def Obligations.SnapshotShowsTheRows : Prop :=
  ∀ (s : State) (r c : Fin 8), s.fbQ.extractLsb' (8 * r.val) 8 = rowBits s.fb r ∧
    s.fbQ.getLsbD (8 * r.val + 7 - c.val) = cell s.fb r c

/-- 40_pixel_buffer.md R81: NOP. -/
def Obligations.NopOnlyResponds : Prop :=
  encode .nop = 0x0000#16 ∧ RefusesBits 0x0#4 0x0FFF#16 ∧
    ∀ s : State, ∃ t, exec .nop s = .next t ∧ CompletedOk s t 0x0#4 0#8 ∧ t.fb = s.fb ∧
      t.rspWord = (if s.rsp.sticky then 0x0800#16 else 0x0000#16) ∧ SameSequencing s t ∧ SameEnvironment s t

/-- 40_pixel_buffer.md R82: CLEAR. -/
def Obligations.ClearUnlightsEveryCell : Prop :=
  encode .clear = 0x1000#16 ∧ RefusesBits 0x1#4 0x0FFF#16 ∧
    ∀ s : State, ∃ t, exec .clear s = .next t ∧ (∀ r c, cell t.fb r c = false) ∧ t.fbQ = 0#64 ∧
      CompletedOk s t 0x1#4 0#8 ∧ SameSequencing s t ∧ SameEnvironment s t

/-- 40_pixel_buffer.md R83: SET writes the one cell named, or raises `OutOfBounds` and writes none. -/
def Obligations.SetWritesOneCell : Prop :=
  (∀ row col lit, encode (.set row col lit) &&& 0xF00E#16 = 0x2000#16 ∧ rowField (encode (.set row col lit)) = row ∧
    colField (encode (.set row col lit)) = col ∧ litField (encode (.set row col lit)) = lit) ∧
  RefusesBits 0x2#4 0x000E#16 ∧
  (∀ (s : State) (r c : Fin 8) (lit : Bool), ∃ t, exec (.set (indexNibble r) (indexNibble c) lit) s = .next t ∧
    (∀ k d, cell t.fb k d = if k = r ∧ d = c then lit else cell s.fb k d) ∧
    CompletedOk s t 0x2#4 0#8 ∧ SameSequencing s t ∧ SameEnvironment s t) ∧
  (∀ (s : State) (row col : Nibble) (lit : Bool), OutOfRange row ∨ OutOfRange col →
    ∃ t, exec (.set row col lit) s = .next t ∧ t.fb = s.fb ∧ RaisedError t 0x2#4 .outOfBounds 0#8 ∧ SameEnvironment s t)

/-- 40_pixel_buffer.md R84: TOGGLE flips the one cell named, or raises `OutOfBounds` and writes none. -/
def Obligations.ToggleFlipsOneCell : Prop :=
  (∀ row col, encode (.toggle row col) &&& 0xF00F#16 = 0x3000#16 ∧ rowField (encode (.toggle row col)) = row ∧
    colField (encode (.toggle row col)) = col) ∧
  RefusesBits 0x3#4 0x000F#16 ∧
  (∀ (s : State) (r c : Fin 8), ∃ t, exec (.toggle (indexNibble r) (indexNibble c)) s = .next t ∧
    (∀ k d, cell t.fb k d = if k = r ∧ d = c then !cell s.fb k d else cell s.fb k d) ∧
    CompletedOk s t 0x3#4 0#8 ∧ SameSequencing s t ∧ SameEnvironment s t) ∧
  (∀ (s : State) (row col : Nibble), OutOfRange row ∨ OutOfRange col →
    ∃ t, exec (.toggle row col) s = .next t ∧ t.fb = s.fb ∧ RaisedError t 0x3#4 .outOfBounds 0#8 ∧ SameEnvironment s t)

/-- 40_pixel_buffer.md R85: GET returns the cell as 0x00 or 0x01, or raises `OutOfBounds`; it writes no cell. -/
def Obligations.GetReturnsTheCell : Prop :=
  (∀ row col, encode (.get row col) &&& 0xF00F#16 = 0x4000#16 ∧ rowField (encode (.get row col)) = row ∧
    colField (encode (.get row col)) = col) ∧
  RefusesBits 0x4#4 0x000F#16 ∧
  (∀ (s : State) (r c : Fin 8), ∃ t, exec (.get (indexNibble r) (indexNibble c)) s = .next t ∧
    CompletedOk s t 0x4#4 (if cell s.fb r c then 0x01#8 else 0x00#8) ∧
    t.fb = s.fb ∧ SameSequencing s t ∧ SameEnvironment s t) ∧
  (∀ (s : State) (row col : Nibble), OutOfRange row ∨ OutOfRange col →
    ∃ t, exec (.get row col) s = .next t ∧ t.fb = s.fb ∧ RaisedError t 0x4#4 .outOfBounds 0#8 ∧ SameEnvironment s t)

/-- 40_pixel_buffer.md R86, 00_scope.md R12: ROWBITS returns the row value, column 0 in bit 7, or raises `OutOfBounds`; it
writes no cell. -/
def Obligations.RowbitsReturnsTheRow : Prop :=
  (∀ row, encode (.rowbits row) &&& 0xF0FF#16 = 0x5000#16 ∧ rowField (encode (.rowbits row)) = row) ∧
  RefusesBits 0x5#4 0x00FF#16 ∧
  (∀ (s : State) (r : Fin 8), ∃ t, exec (.rowbits (indexNibble r)) s = .next t ∧
    (∀ c : Fin 8, t.rsp.data.getLsbD (7 - c.val) = cell s.fb r c) ∧ CompletedOk s t 0x5#4 (rowBits s.fb r) ∧
    t.fb = s.fb ∧ SameSequencing s t ∧ SameEnvironment s t) ∧
  (∀ (s : State) (row : Nibble), OutOfRange row →
    ∃ t, exec (.rowbits row) s = .next t ∧ t.fb = s.fb ∧ RaisedError t 0x5#4 .outOfBounds 0#8 ∧ SameEnvironment s t)

/-- 30_encoding.md R67, 60_exceptions.md R141: accepting a word with a reserved opcode raises `IllegalCommand`
with its opcode echoed, and changes nothing else of the block. That such a word decodes to the reserved row, whose meaning
raises, is the model's choice (log entry 17). -/
def Obligations.ReservedOpcodesRaise : Prop :=
  (∀ (leftShift : Bool) (w : Word), 0xC ≤ (opField w).toNat → ∃ low, decodeWith leftShift w = .ok (.reserved low)) ∧
  RefusedWithoutLeftShift 0x8#4 ∧ RefusedWithoutLeftShift 0x9#4 ∧
  (∀ (p : Params) (s : State) (w : Word), Accepts s w → 0xC ≤ (opField w).toNat → RaisesIllegal p s (opField w)) ∧
  (∀ (s : State) (low : BitVec 14), ∃ t, exec (.reserved low) s = .next t ∧
    RaisedError t (opField (encode (.reserved low))) .illegalCommand 0#8 ∧ t.fb = s.fb ∧ SameEnvironment s t)

/-- 41_shift_engine.md R101: SHRDROP. -/
def Obligations.ShrdropShiftsRight : Prop :=
  encode .shrdrop = 0x6000#16 ∧ RefusesBits 0x6#4 0x0FFF#16 ∧
    ∀ s : State, ∃ t, exec .shrdrop s = .next t ∧
      (∀ r c, cell t.fb r c = if c = 0 then false else cell s.fb r (c - 1)) ∧
      (∀ r, rowBits t.fb r = rowBits s.fb r >>> 1) ∧
      CompletedOk s t 0x6#4 0#8 ∧ SameSequencing s t ∧ SameEnvironment s t

/-- 41_shift_engine.md R102: SHRLOOP. -/
def Obligations.ShrloopRotatesRight : Prop :=
  encode .shrloop = 0x7000#16 ∧ RefusesBits 0x7#4 0x0FFF#16 ∧
    ∀ s : State, ∃ t, exec .shrloop s = .next t ∧
      (∀ r c, cell t.fb r c = if c = 0 then cell s.fb r 7 else cell s.fb r (c - 1)) ∧
      (∀ r, rowBits t.fb r = (rowBits s.fb r).rotateRight 1) ∧
      CompletedOk s t 0x7#4 0#8 ∧ SameSequencing s t ∧ SameEnvironment s t

/-- 41_shift_engine.md R103: SHLDROP, refused where the left shifts are absent. -/
def Obligations.ShldropShiftsLeft : Prop :=
  encode .shldrop = 0x8000#16 ∧ decodeWith true 0x8000#16 = .ok .shldrop ∧ RefusesBits 0x8#4 0x0FFF#16 ∧
    RefusedWithoutLeftShift 0x8#4 ∧
    ∀ s : State, ∃ t, exec .shldrop s = .next t ∧
      (∀ r c, cell t.fb r c = if c = 7 then false else cell s.fb r (c + 1)) ∧
      (∀ r, rowBits t.fb r = rowBits s.fb r <<< 1) ∧
      CompletedOk s t 0x8#4 0#8 ∧ SameSequencing s t ∧ SameEnvironment s t

/-- 41_shift_engine.md R104: SHLLOOP, refused where the left shifts are absent. -/
def Obligations.ShlloopRotatesLeft : Prop :=
  encode .shlloop = 0x9000#16 ∧ decodeWith true 0x9000#16 = .ok .shlloop ∧ RefusesBits 0x9#4 0x0FFF#16 ∧
    RefusedWithoutLeftShift 0x9#4 ∧
    ∀ s : State, ∃ t, exec .shlloop s = .next t ∧
      (∀ r c, cell t.fb r c = if c = 7 then cell s.fb r 0 else cell s.fb r (c + 1)) ∧
      (∀ r, rowBits t.fb r = (rowBits s.fb r).rotateLeft 1) ∧
      CompletedOk s t 0x9#4 0#8 ∧ SameSequencing s t ∧ SameEnvironment s t

/-- 42_row_serializer.md R124, 10_state.md R30: FLUSH at its acceptance is in `Flushing(0, 0)` and offers `[0x01, ROW0]`, the
register byte in bits 15..8 of the bus port (20_memory.md R42); it writes no cell. That `rsp` stays as it was until the FLUSH
completes is 10_state.md R24 and D29 read against 40_pixel_buffer.md R80 (log entry 8). -/
def Obligations.FlushOffersTheFirstRow : Prop :=
  encode .flush = 0xA000#16 ∧ RefusesBits 0xA#4 0x0FFF#16 ∧
    ∀ s : State, ∃ t, exec .flush s = .next t ∧ t.phase = .flushing 0 0 ∧
      t.offer = some { reg := 0x01#8, value := rowBits s.fb 0 } ∧ t.busValid = true ∧
      t.busData = some (0x01#8 ++ rowBits s.fb 0) ∧ t.waited = 0 ∧ t.rspValid = false ∧
      t.rsp = s.rsp ∧ t.fb = s.fb ∧ SameEnvironment s t

/-- 42_row_serializer.md R124, R129: under any waits within the timeout and an `ok` to each pair, FLUSH offers exactly the
eight pairs of the buffer as it stood at acceptance, in ascending order, and responds OK with 8. -/
def Obligations.FlushDeliversEightPairs : Prop :=
  ∀ (p : Params) (s : State) (waits : Fin 8 → Nat), (∀ k, WithinTimeout p (waits k)) →
    ∃ u t, exec .flush s = .next u ∧ runReplied p (okReplies waits 8) u = .next t ∧
      t.sink = s.sink ++ okEvents s.fb 8 ∧ t.fb = s.fb ∧ CompletedOk s t 0xA#4 8#8 ∧
      t.phase = .idle ∧ t.offer = none ∧ t.busValid = false ∧ t.cmdReady = true

/-- 42_row_serializer.md R125, R129: when pair `j` is answered `err`, the pairs before it were delivered, the rows after it
are never offered, `fb` is unchanged, and the response is `BusError` with the count `j`. -/
def Obligations.FlushStopsAtTheFirstError : Prop :=
  ∀ (p : Params) (s : State) (waits : Fin 8 → Nat) (j : Fin 8), (∀ k, WithinTimeout p (waits k)) →
    ∃ u t, exec .flush s = .next u ∧
      runReplied p (okReplies waits j.val ++ errAfter (waits j)) u = .next t ∧
      t.sink = s.sink ++ okEvents s.fb j.val ++
        [{ pair := { reg := BitVec.ofNat 8 (j.val + 1), value := rowBits s.fb j }, ending := .err }] ∧
      t.fb = s.fb ∧ RaisedError t 0xA#4 .busError (BitVec.ofNat 8 j.val)

/-- 42_row_serializer.md R124, R127, 95_test_vectors.md L2.3: with `BUS_TIMEOUT` set, a pair unanswered for that many wait
steps ends the FLUSH at the next turn with `BusError` and the count of pairs answered `ok`. -/
def Obligations.FlushTimesOut : Prop :=
  ∀ (p : Params) (s : State) (waits : Fin 8 → Nat) (j : Fin 8) (limit : Nat), p.busTimeout = some limit →
    (∀ k, waits k ≤ limit) →
    ∃ u t, exec .flush s = .next u ∧
      runReplied p (okReplies waits j.val ++ List.replicate (limit + 1) .notYet) u = .next t ∧
      t.sink = s.sink ++ okEvents s.fb j.val ++
        [{ pair := { reg := BitVec.ofNat 8 (j.val + 1), value := rowBits s.fb j }, ending := .timedOut }] ∧
      t.fb = s.fb ∧ RaisedError t 0xA#4 .busError (BitVec.ofNat 8 j.val)

/-- 42_row_serializer.md R126: EMIT offers its one pair, the value unchanged; an `ok` completes it with 1, an `err` or the
timeout raises `BusError` with 0; it reads and writes no cell. The register byte is in bits 15..8 of the bus port (20_memory.md
R42). That `rsp` stays as it was until the EMIT completes is 10_state.md R24 and D29 read against 40_pixel_buffer.md R80 (log
entry 8). -/
def Obligations.EmitOffersItsPair : Prop :=
  (∀ reg value, encode (.emit reg value) &&& 0xF000#16 = 0xB000#16 ∧
    DevReg.ofNumber (rowField (encode (.emit reg value))) = some reg ∧
    valueField (encode (.emit reg value)) = value) ∧
  (∀ (p : Params) (s : State) (w : Word), Accepts s w → opField w = 0xB#4 → rowField w = 0xD#4 ∨ rowField w = 0xE#4 →
    RaisesIllegal p s 0xB#4) ∧
  (∀ (p : Params) (s : State) (reg : DevReg) (value : Byte) (wait : Nat), ∃ u,
    exec (.emit reg value) s = .next u ∧ u.phase = .emitting ∧
      u.offer = some { reg := reg.number.setWidth 8, value := value } ∧ u.busValid = true ∧
      u.busData = some (reg.number.setWidth 8 ++ value) ∧ u.waited = 0 ∧ u.rspValid = false ∧
      u.rsp = s.rsp ∧ u.fb = s.fb ∧ SameEnvironment s u ∧
    (WithinTimeout p wait → ∃ t, runReplied p (okAfter wait) u = .next t ∧
      t.sink = s.sink ++ [{ pair := { reg := reg.number.setWidth 8, value := value }, ending := .ok }] ∧
      t.fb = s.fb ∧ CompletedOk s t 0xB#4 1#8 ∧ t.phase = .idle ∧ t.offer = none) ∧
    (WithinTimeout p wait → ∃ t, runReplied p (errAfter wait) u = .next t ∧
      t.sink = s.sink ++ [{ pair := { reg := reg.number.setWidth 8, value := value }, ending := .err }] ∧
      t.fb = s.fb ∧ RaisedError t 0xB#4 .busError 0#8) ∧
    (∀ limit, p.busTimeout = some limit → ∃ t, runReplied p (List.replicate (limit + 1) .notYet) u = .next t ∧
      t.sink = s.sink ++ [{ pair := { reg := reg.number.setWidth 8, value := value }, ending := .timedOut }] ∧
      t.fb = s.fb ∧ RaisedError t 0xB#4 .busError 0#8))

/-- 70_reset_and_hazards.md R186: with no timeout an unanswered pair is offered for ever and the command port stays closed;
with a timeout the command ends with `BusError`. 42_row_serializer.md R127, 10_state.md R37: without `bus_ack`, `bus_err` does
not count, and a step short of the timeout is one more wait step. -/
def Obligations.UnansweredPairStallsOrTimesOut : Prop :=
  (∀ (p : Params) (s : State) (steps : Nat), s.phase ≠ .idle → p.busTimeout = none →
    ∃ t, runReplied p (List.replicate steps .notYet) s = .next t ∧ t.phase = s.phase ∧ t.offer = s.offer ∧
      t.fb = s.fb ∧ t.rsp = s.rsp ∧ t.cmdReady = false) ∧
  (∀ (p : Params) (s : State) (limit : Nat), BlockInv p s → s.phase ≠ .idle → p.busTimeout = some limit →
    ∃ t, runReplied p (List.replicate (limit + 1 - s.waited) .notYet) s = .next t ∧ t.rsp.status = .busError ∧
      t.rspValid = true ∧ t.phase = .idle ∧ t.offer = none) ∧
  (∀ (p : Params) (s : State) (busErr : Bool), s.phase ≠ .idle → s.inp.busAck = false →
    stepWith p { s with inp := { s.inp with busErr := busErr } } = stepWith p s) ∧
  (∀ (p : Params) (s : State), s.phase ≠ .idle → s.inp.rst = false → s.inp.busAck = false → p.busTimeout ≠ some s.waited →
    ∃ t, stepWith p s = .next t ∧ t.phase = s.phase ∧ t.offer = s.offer ∧ t.waited = s.waited + 1 ∧ t.fb = s.fb ∧
      t.rsp = s.rsp ∧ t.rspValid = false ∧ t.sink = s.sink)

/-- 60_exceptions.md R143: what raising an error does to any state, field by field (`fb` and everything of the
environment stay), and no cell is written by a command that raises. -/
def Obligations.RaiseEndsTheCommand : Prop :=
  (∀ (e : Err) (info : Byte) (s : State),
    RaisedError (raise e info s) s.rsp.op e info ∧ (raise e info s).busValid = false ∧
      (raise e info s).cmdReady = true ∧ (raise e info s).fb = s.fb ∧ SameEnvironment s (raise e info s)) ∧
  (∀ (i : Instr) (s t : State), exec i s = .next t → t.rspValid = true → t.rsp.status ≠ .ok → t.fb = s.fb)

/-- 10_state.md R31: while the block is busy the word on the command port waits, neither accepted nor dropped, and `fb`
cannot change. -/
def Obligations.BusyBlockAcceptsNothing : Prop :=
  ∀ (p : Params) (s : State), s.inp.rst = false → s.phase ≠ .idle → s.cmdReady = false ∧
    ∃ t, stepWith p s = .next t ∧ t.cmd = s.cmd ∧ t.fb = s.fb

/-- 10_state.md R22, R21: without a reset, `fb` changes only in a step that accepts a word of a command that writes it. -/
def Obligations.OnlyWritersChangeTheBuffer : Prop :=
  ∀ (p : Params) (s t : State), s.inp.rst = false → stepWith p s = .next t → t.fb ≠ s.fb →
    ∃ w i, Accepts s w ∧ decodeWith p.leftShiftPresent w = .ok i ∧ i.writesBuffer = true

/-- 10_state.md R26: over every step, `sticky` is set exactly when a command ends with a status other than OK, else kept;
only a reset clears it. -/
def Obligations.StickyIsSetByErrorsOnly : Prop :=
  ∀ (p : Params) (s t : State), stepWith p s = .next t →
    (s.inp.rst = false → t.rsp.sticky =
      (s.rsp.sticky || (t.rspValid && decide (t.rsp.status ≠ .ok)))) ∧
    (s.inp.rst = true → t.rsp.sticky = false)

/-- 40_pixel_buffer.md R80, 20_memory.md R47: an accepted word leaves the port, and its response is valid in that step, with its
opcode echoed, exactly when it leaves the block idle, which is for every word but a FLUSH or an EMIT; after one of these the
sequencing state has its opcode and `rsp` is as it was (10_state.md R24 and D29 read against R80, log entry 8). -/
def Obligations.AcceptedWordIsAnswered : Prop :=
  ∀ (p : Params) (s : State) (w : Word), Accepts s w →
    ∃ t, stepWith p s = .next t ∧ t.cmd = none ∧
      (t.rspValid = true ↔ t.phase = .idle) ∧
      (t.phase = .idle → t.rsp.op = opField w) ∧
      (t.phase ≠ .idle → t.phase.opcode = some (opField w) ∧ t.rsp = s.rsp) ∧
      (t.phase = .idle ↔ ¬ ∃ i, decodeWith p.leftShiftPresent w = .ok i ∧ (i = .flush ∨ ∃ r v, i = .emit r v))

/-- 60_exceptions.md R145, 70_reset_and_hazards.md R186: no step of the machine stops, whatever its state and parameters. -/
def Obligations.EveryStepAnswersANextState : Prop :=
  (∀ (p : Params) (s : State), ∃ t, stepWith p s = .next t) ∧ ∀ (i : Instr) (s : State), ∃ t, exec i s = .next t

/-- 40_pixel_buffer.md R88: TOGGLE twice restores the buffer. -/
def Obligations.ToggleTwiceRestores : Prop :=
  ∀ (s : State) (r c : Fin 8), ∃ t,
    execAll [.toggle (indexNibble r) (indexNibble c), .toggle (indexNibble r) (indexNibble c)] s = .next t ∧ t.fb = s.fb

/-- 40_pixel_buffer.md R89: a row set cell by cell reads back as the byte of its cells, column 0 most significant. -/
def Obligations.RowSetThenReadBack : Prop :=
  (∀ (s : State) (r : Fin 8) (pattern : Fin 8 → Bool), ∃ t,
    execAll (((List.finRange 8).map fun c => .set (indexNibble r) (indexNibble c) (pattern c)) ++
      [.rowbits (indexNibble r)]) s = .next t ∧
    t.rsp.status = .ok ∧ (∀ c : Fin 8, t.rsp.data.getLsbD (7 - c.val) = pattern c)) ∧
  (∀ (s : State) (r : Fin 8), ∃ t,
    execAll (((List.finRange 8).map fun c => .set (indexNibble r) (indexNibble c) (decide (c = 0 ∨ c = 2))) ++
      [.rowbits (indexNibble r)]) s = .next t ∧ t.rsp.data = 0xA0#8)

/-- 40_pixel_buffer.md R91: SET is idempotent and touches no other cell; after CLEAR any reads leave every result 0. -/
def Obligations.SetIdempotentAndClearReadsZero : Prop :=
  (∀ (s : State) (r c : Fin 8) (lit : Bool), ∃ t u,
    execAll [.set (indexNibble r) (indexNibble c) lit] s = .next t ∧
      execAll [.set (indexNibble r) (indexNibble c) lit, .set (indexNibble r) (indexNibble c) lit] s = .next u ∧
      u.fb = t.fb ∧ ∀ k d, ¬ (k = r ∧ d = c) → cell t.fb k d = cell s.fb k d) ∧
  (∀ (s : State) (reads : List Instr), (∀ i ∈ reads, i.onlyReads = true) →
    ∃ t, execAll (.clear :: reads) s = .next t ∧ t.rsp.data = 0#8 ∧ ∀ r c, cell t.fb r c = false)

/-- 41_shift_engine.md R106: `k` looping shifts right rotate every row right by `k`; eight of either direction restore the
buffer. -/
def Obligations.LoopingShiftsRotate : Prop :=
  (∀ (s : State) (k : Nat), ∃ t, execAll (List.replicate k .shrloop) s = .next t ∧
    ∀ r, rowBits t.fb r = (rowBits s.fb r).rotateRight k) ∧
  (∀ s : State, ∃ t, execAll (List.replicate 8 .shrloop) s = .next t ∧ t.fb = s.fb) ∧
  (∀ s : State, ∃ t, execAll (List.replicate 8 .shlloop) s = .next t ∧ t.fb = s.fb)

/-- 41_shift_engine.md R107: `k` drop-shifts right shift every row right by `k`; eight of either direction clear the
buffer. -/
def Obligations.DropShiftsEmpty : Prop :=
  (∀ (s : State) (k : Nat), ∃ t, execAll (List.replicate k .shrdrop) s = .next t ∧
    ∀ r, rowBits t.fb r = rowBits s.fb r >>> k) ∧
  (∀ s : State, ∃ t, execAll (List.replicate 8 .shrdrop) s = .next t ∧ ∀ r c, cell t.fb r c = false) ∧
  (∀ s : State, ∃ t, execAll (List.replicate 8 .shldrop) s = .next t ∧ ∀ r c, cell t.fb r c = false)

/-- 41_shift_engine.md R108: a left and a right loop cancel; a left and a right drop lose one column. -/
def Obligations.LeftAndRightShiftsCancel : Prop :=
  ∀ s : State,
    (∃ t, execAll [.shlloop, .shrloop] s = .next t ∧ t.fb = s.fb) ∧
    (∃ t, execAll [.shrloop, .shlloop] s = .next t ∧ t.fb = s.fb) ∧
    (∃ t, execAll [.shldrop, .shrdrop] s = .next t ∧
      ∀ r c, cell t.fb r c = if c = 0 then false else cell s.fb r c) ∧
    (∃ t, execAll [.shrdrop, .shldrop] s = .next t ∧
      ∀ r c, cell t.fb r c = if c = 7 then false else cell s.fb r c)

/-- 41_shift_engine.md R109: a shift's new value of a row depends only on that row's old value, by the same function for
every row. -/
def Obligations.ShiftsAreLaneIndependent : Prop :=
  ∀ i ∈ [Instr.shrdrop, .shrloop, .shldrop, .shlloop], ∃ f : Byte → Byte, ∀ s : State,
    ∃ t, exec i s = .next t ∧ ∀ r, rowBits t.fb r = f (rowBits s.fb r)

/-- The invariant of the block and that of the host agent hold at reset. -/
def Obligations.InvariantsHoldAtReset : Prop :=
  ∀ p : Params, BlockInv p State.reset ∧ HostInv p State.reset

/-- Every step keeps the invariant of the block, whatever the host has put on the command port: bus port and phase agree,
the wait count is within the timeout, no error status is without `sticky`, a completed command leaves the block idle. -/
def Obligations.BlockInvariantKept : Prop :=
  ∀ (p : Params) (s t : State), BlockInv p s → stepWith p s = .next t → BlockInv p t

/-- Every step keeps the invariant of the host agent: in a tick the only word outstanding is the tick's own,
every word the host issued is answered, and the loop runs only after a successful setup. -/
def Obligations.HostInvariantKept : Prop :=
  ∀ (p : Params) (s t : State), HostInv p s → stepWith p s = .next t → HostInv p t

/-- 60_exceptions.md R164: a whole tick, from the end of its wait, when the Bus Sink answers each pair `ok` within the
timeout: the rows are rotated right, the eight rotated rows are sent in order, the new snapshot goes to the Display Sink,
the loop still runs and is between ticks. Until the wait ends nothing is issued: a move of the host in it with no request
pending changes nothing. How steps interleave, and that the end of the wait is an input, is the model's (log entries 14, 15). -/
def Obligations.TickShiftsFlushesPublishes : Prop :=
  (∀ (p : Params) (s : State) (millis : Nat) (waits : Fin 8 → Nat), HostTurn s → s.host.job = .waiting millis →
    s.host.mode = .running → pendingRequests s = [] → s.inp.elapsed = true → (∀ k, WithinTimeout p (waits k)) →
    ∃ t, runReplied p (List.replicate 4 .notYet ++ okReplies waits 8 ++ [.notYet]) s = .next t ∧
      (∀ r, rowBits t.fb r = (rowBits s.fb r).rotateRight 1) ∧ t.sink = s.sink ++ okEvents t.fb 8 ∧
      t.shown = s.shown ++ [t.fbQ] ∧ t.host.mode = .running ∧ t.host.job = .free ∧ t.phase = .idle) ∧
  (∀ (p : Params) (s : State) (millis : Nat), HostTurn s → s.host.job = .waiting millis → pendingRequests s = [] →
    s.inp.elapsed = false →
    ∃ t, stepWith p s = .next t ∧ t.host = s.host ∧ t.cmd = none ∧ t.phase = .idle ∧ t.fb = s.fb ∧ t.rsp = s.rsp ∧
      t.sink = s.sink ∧ t.shown = s.shown)

/-- 60_exceptions.md R167, R164, R142: when pair `j` of a tick's FLUSH is answered `err`, or is unanswered until
`BUS_TIMEOUT` ends its wait, the loop is Stopped, the error is surfaced, nothing is published, and the buffer stays as the
SHRLOOP made it. How steps interleave, and that the end of the host's wait is an input, is the model's (log entries 14, 15). -/
def Obligations.TickBusErrorStopsTheLoop : Prop :=
  ∀ (p : Params) (s : State) (millis : Nat) (waits : Fin 8 → Nat) (j : Fin 8) (failure : List SinkReply), HostTurn s →
    s.host.job = .waiting millis → s.host.mode = .running → pendingRequests s = [] → s.inp.elapsed = true →
    (∀ k, WithinTimeout p (waits k)) →
    (failure = errAfter (waits j) ∨
      ∃ limit, p.busTimeout = some limit ∧ failure = List.replicate (limit + 1) .notYet) →
    ∃ t, runReplied p (List.replicate 4 .notYet ++ okReplies waits j.val ++ failure ++ [.notYet]) s = .next t ∧
      (∀ r, rowBits t.fb r = (rowBits s.fb r).rotateRight 1) ∧ t.shown = s.shown ∧ t.host.mode = .stopped ∧
      t.host.errors = s.host.errors ++ [.tickBusError] ∧ t.rsp.status = .busError ∧ t.phase = .idle

/-- 70_reset_and_hazards.md R179, R180, 60_exceptions.md R163: the setup sequence, each EMIT answered `ok` within the
timeout, sends the five pairs in order, and the loop starts. That it begins on a request, that requests which wait or arrive
stay queued until it ends, and how steps interleave, is the model's choice (log entries 9, 11, 15). -/
def Obligations.SetupSendsFivePairs : Prop :=
  ∀ (p : Params) (s : State) (later : List Request) (waits : Fin 5 → Nat), HostTurn s → s.host.job = .free →
    s.host.setup = .pending → pendingRequests s = .beginSetup :: later → (∀ k, WithinTimeout p (waits k)) →
    ∃ t, runReplied p (.notYet :: setupReplies waits) s = .next t ∧
      t.sink = s.sink ++ ([⟨0x0B#8, 0x07#8⟩, ⟨0x09#8, 0x00#8⟩, ⟨0x0F#8, 0x00#8⟩, ⟨0x0C#8, 0x01#8⟩,
        ⟨0x0A#8, 0x05#8⟩] : List Pair).map (fun pair => { pair := pair, ending := .ok }) ∧
      t.host.setup = .done ∧ t.host.mode = .running ∧ t.rsp.status = .ok ∧ t.rsp.data = 1#8 ∧ t.fb = s.fb

/-- 70_reset_and_hazards.md R180, 60_exceptions.md R148: the response to an EMIT of the setup: an error surfaces
InitializationError and no further EMIT is issued. -/
def Obligations.SetupErrorStopsTheSetup : Prop :=
  ∀ (p : Params) (s : State) (k : Fin 5), HostTurn s → s.host.job = .setup k → s.rspValid = true →
    s.rsp.status ≠ .ok →
    ∃ t, stepWith p s = .next t ∧ t.host.setup = .failed ∧ t.host.errors = s.host.errors ++ [.setupFailed] ∧
      t.cmd = none ∧ t.host.job = .free ∧ t.host.mode = s.host.mode ∧ t.fb = s.fb

/-- 60_exceptions.md R148, 70_reset_and_hazards.md R180: after a failed setup, and short of a reset, the animation never
starts: no step of a machine that keeps its invariants leaves the failed setup, runs the loop, or begins a tick. -/
def Obligations.FailedSetupNeverAnimates : Prop :=
  ∀ (p : Params) (s t : State), HostInv p s → s.host.setup = .failed → s.inp.rst = false →
    stepWith p s = .next t →
    t.host.setup = .failed ∧ t.host.mode = .stopped ∧ t.host.job ≠ .tickShift ∧ t.host.job ≠ .tickFlush ∧
      ∀ millis, t.host.job ≠ .waiting millis

/-- 60_exceptions.md R166, R163: a stop served during the wait ends the tick before SHRLOOP is issued, and one served between
ticks stops the loop; once SHRLOOP is issued the loop stays Running until the FLUSH has been issued and answered, and FLUSH is
what is issued after SHRLOOP. That requests are served in their order, in the wait before its end is looked at, is the model's
choice (log entries 11, 14). -/
def Obligations.StopNeverSplitsATick : Prop :=
  (∀ (p : Params) (s : State) (millis : Nat) (later : List Request), HostTurn s → s.host.job = .waiting millis →
    pendingRequests s = .stop :: later →
    ∃ t, stepWith p s = .next t ∧ t.host.mode = .stopped ∧ t.host.job = .free ∧ t.cmd = none ∧ t.host.queue = later) ∧
  (∀ (p : Params) (s : State) (later : List Request), HostTurn s → s.host.job = .free → s.host.mode = .running →
    pendingRequests s = .stop :: later →
    ∃ t, stepWith p s = .next t ∧ t.host = { s.host with mode := .stopped, queue := later } ∧ t.cmd = none ∧ t.fb = s.fb) ∧
  (∀ (p : Params) (s t : State), HostInv p s → s.inp.rst = false → s.host.job = .tickShift →
    stepWith p s = .next t →
    t.host.mode = .running ∧ t.host.queue = pendingRequests s ∧
      (t.host.job = .tickShift ∨ (t.host.job = .tickFlush ∧ t.cmd = some 0xA000#16))) ∧
  (∀ (p : Params) (s t : State), HostInv p s → s.inp.rst = false → s.host.job = .tickFlush →
    stepWith p s = .next t → t.host.job ≠ .free →
    t.host.mode = .running ∧ t.host.queue = pendingRequests s ∧ t.host.job = .tickFlush)

/-- 60_exceptions.md R165: a start while Running and a stop while Stopped change nothing of the loop. That the moment it is
served counts, not that of its arrival, is the model's choice (log entry 21). -/
def Obligations.StartAndStopAreIdempotent : Prop :=
  (∀ (p : Params) (s : State) (later : List Request), HostTurn s →
    (s.host.job = .free ∨ ∃ millis, s.host.job = .waiting millis) → s.host.mode = .running →
    pendingRequests s = .start :: later →
    ∃ t, stepWith p s = .next t ∧ t.host = { s.host with queue := later } ∧ t.cmd = none) ∧
  (∀ (p : Params) (s : State) (later : List Request), HostTurn s → s.host.job = .free → s.host.mode = .stopped →
    pendingRequests s = .stop :: later →
    ∃ t, stepWith p s = .next t ∧ t.host = { s.host with queue := later } ∧ t.cmd = none)

/-- 60_exceptions.md R163: a start when Stopped enters Running after a successful setup, and only then. That mode and setup
count as they are when the start is served, and that a start before the setup is done is dropped, is the model's choice (log
entry 21). -/
def Obligations.StartNeedsTheSetup : Prop :=
  ∀ (p : Params) (s : State) (later : List Request), HostTurn s → s.host.job = .free → s.host.mode = .stopped →
    pendingRequests s = .start :: later →
    ∃ t, stepWith p s = .next t ∧ (t.host.mode = .running ↔ s.host.setup = .done) ∧ t.host.queue = later ∧ t.cmd = none

/-- 60_exceptions.md R168, R164: a legal speed change writes the period and issues no command; a wait in progress keeps the
period it read; a new tick reads the period at its start. That requests are served in their order, in the wait before its end
is looked at, is the model's choice (log entries 11, 14). -/
def Obligations.SpeedChangeTakesTheNextTick : Prop :=
  (∀ (p : Params) (s : State) (millis : Nat) (later : List Request), HostTurn s →
    (s.host.job = .free ∨ ∃ m, s.host.job = .waiting m) → 1 ≤ millis → millis ≤ p.periodMax →
    pendingRequests s = .setSpeed millis :: later →
    ∃ t, stepWith p s = .next t ∧ t.host = { s.host with period := millis, queue := later } ∧ t.cmd = none) ∧
  (∀ (p : Params) (s : State), HostTurn s → s.host.job = .free → s.host.mode = .running → pendingRequests s = [] →
    ∃ t, stepWith p s = .next t ∧ t.host.job = .waiting s.host.period ∧ t.cmd = none)

/-- 60_exceptions.md R169: a pixel request is issued as a TOGGLE between ticks or in the wait; in the body of a tick it stays
queued (the third and fourth parts of `StopNeverSplitsATick`). On the response to a served request the host goes back to the
wait, or is free, and surfaces an error (60_exceptions.md R145). The model's choices: a TOGGLE is issued whatever the setup,
pending or failed too (log entry 22); an index of 8 to 15 reaches the block (log entry 12); requests are served in their order,
in the wait before its end is looked at (log entries 11, 14); a `BusError` there stops the loop (log entry 13). -/
def Obligations.PixelRequestIssuesToggle : Prop :=
  (∀ (p : Params) (s : State) (row col : Nibble) (later : List Request), HostTurn s → s.host.job = .free →
    pendingRequests s = .togglePixel row col :: later →
    ∃ t, stepWith p s = .next t ∧ t.cmd = some (encode (.toggle row col)) ∧ t.host.job = .serving none ∧
      t.host.queue = later ∧ t.host.mode = s.host.mode) ∧
  (∀ (p : Params) (s : State) (millis : Nat) (row col : Nibble) (later : List Request), HostTurn s →
    s.host.job = .waiting millis → pendingRequests s = .togglePixel row col :: later →
    ∃ t, stepWith p s = .next t ∧ t.cmd = some (encode (.toggle row col)) ∧ t.host.job = .serving (some millis) ∧
      t.host.queue = later ∧ t.host.mode = s.host.mode) ∧
  (∀ (p : Params) (s : State) (resume : Option Nat), HostTurn s → s.host.job = .serving resume → s.rspValid = true →
    ∃ t, stepWith p s = .next t ∧ t.cmd = none ∧ t.fb = s.fb ∧ t.sink = s.sink ∧ t.shown = s.shown ∧
      t.host.queue = pendingRequests s ∧ t.host.period = s.host.period ∧ t.host.setup = s.host.setup ∧
      (s.rsp.status ≠ .busError → t.host.mode = s.host.mode ∧
        (∀ millis, resume = some millis → t.host.job = .waiting millis) ∧ (resume = none → t.host.job = .free)) ∧
      (s.rsp.status = .busError → t.host.mode = .stopped ∧ t.host.job = .free) ∧
      (s.rsp.status = .ok → t.host.errors = s.host.errors) ∧
      (s.rsp.status ≠ .ok → t.host.errors = s.host.errors ++ [.requestFailed s.rsp.status]))

/-- 10_state.md R24, R25, 60_exceptions.md R143: where the fields of `rsp` stand in the response word, the code of each
status, and the code each error writes. -/
def Obligations.ResponseRegisterReads : Prop :=
  (∀ s : State,
    s.rspWord.extractLsb' 12 4 = s.rsp.op ∧ s.rspWord.getLsbD 11 = s.rsp.sticky ∧
      s.rspWord.extractLsb' 0 8 = s.rsp.data ∧
      (s.rspWord.extractLsb' 8 3 = 0#3 ↔ s.rsp.status = .ok) ∧
      (s.rspWord.extractLsb' 8 3 = 1#3 ↔ s.rsp.status = .outOfBounds) ∧
      (s.rspWord.extractLsb' 8 3 = 2#3 ↔ s.rsp.status = .illegalCommand) ∧
      (s.rspWord.extractLsb' 8 3 = 3#3 ↔ s.rsp.status = .busError)) ∧
  (∀ (info : Byte) (s : State),
    (raise .outOfBounds info s).rspWord.extractLsb' 8 3 = 1#3 ∧
      (raise .illegalCommand info s).rspWord.extractLsb' 8 3 = 2#3 ∧
      (raise .busError info s).rspWord.extractLsb' 8 3 = 3#3)

/-- 10_state.md R24, D29, 40_pixel_buffer.md R80: without a reset, `rsp` changes only in a step that completes a command, and
that command's opcode is then in `op`: the accepted word's, or that of the command in progress; a move of the host changes
nothing of the block. That `op` changes at completion and not at acceptance is R24 and D29 read against R80 (log entry 8). -/
def Obligations.ResponseHeldUntilCompletion : Prop :=
  (∀ (p : Params) (s t : State) (w : Word), Accepts s w → stepWith p s = .next t →
    (t.rspValid = true → t.rsp.op = opField w) ∧ (t.rspValid = false → t.rsp = s.rsp)) ∧
  (∀ (p : Params) (s t : State), s.inp.rst = false → s.phase ≠ .idle → stepWith p s = .next t →
    (t.rspValid = true → s.phase.opcode = some t.rsp.op) ∧ (t.rspValid = false → t.rsp = s.rsp)) ∧
  (∀ (p : Params) (s : State), HostTurn s →
    ∃ t, stepWith p s = .next t ∧ t.rsp = s.rsp ∧ t.rspValid = false ∧ t.fb = s.fb ∧ t.sink = s.sink ∧ SameSequencing s t)
end

