-- ==== Sys2Proof/Laws/Decode.lean ====
section
/-! SUPPORT. Small laws of the decoder's parts: the register numbers, and the opcode a decoded command has. -/

namespace Sys2Proof

theorem DevReg.ofNumber_number (r : DevReg) : DevReg.ofNumber r.number = some r := by
  cases r with
  | row r => revert r; decide
  | _ => rfl

theorem DevReg.number_of_ofNumber {n : Nibble} {r : DevReg} (h : DevReg.ofNumber n = some r) : r.number = n := by
  have all : ∀ n : Nibble, ∀ r, DevReg.ofNumber n = some r → r.number = n := by decide +revert
  exact all n r h

theorem DevReg.ofNumber_eq_none_iff (n : Nibble) : DevReg.ofNumber n = none ↔ n = 0xD#4 ∨ n = 0xE#4 := by
  revert n; decide

theorem requireZero_eq_ok {w : Word} {lo len : Nat} {i j : Instr} :
    requireZero w lo len i = .ok j ↔ w.extractLsb' lo len = 0#len ∧ i = j := by
  unfold requireZero
  split <;> simp_all

theorem requireLeftShift_eq_ok {left : Bool} {w : Word} {i j : Instr} :
    requireLeftShift left w i = .ok j ↔ left = true ∧ w.extractLsb' 0 12 = 0#12 ∧ i = j := by
  unfold requireLeftShift
  split <;> simp_all [requireZero_eq_ok]

/-- A bit of four nibbles in a row. -/
theorem nibbles_getLsbD (a b c d : Nibble) (i : Nat) :
    BitVec.getLsbD (w := 16) (a ++ b ++ c ++ d) i =
      if i < 4 then d.getLsbD i else if i < 8 then c.getLsbD (i - 4)
      else if i < 12 then b.getLsbD (i - 8) else a.getLsbD (i - 12) := by
  change BitVec.getLsbD (w := 4 + 4 + 4 + 4) (a ++ b ++ c ++ d) i = _
  simp only [BitVec.getLsbD_append, Nat.sub_sub]
  repeat' split
  all_goals first | rfl | omega

/-- A word is its four nibbles. -/
theorem word_fields (w : Word) : opField w ++ rowField w ++ colField w ++ w.extractLsb' 0 4 = w := by
  apply BitVec.eq_of_getLsbD_eq
  intro i hi
  rw [nibbles_getLsbD]
  simp only [opField, rowField, colField, BitVec.getLsbD_extractLsb']
  repeat' split
  all_goals rw [decide_eq_true (by omega), Bool.true_and]; congr 1; omega

/-- The opcode field of four nibbles in a row is the first. -/
theorem opField_nibbles (a b c d : Nibble) : opField (a ++ b ++ c ++ d) = a := by
  apply BitVec.eq_of_getLsbD_eq
  intro i hi
  rw [opField, BitVec.getLsbD_extractLsb', nibbles_getLsbD]
  repeat' split
  all_goals first | omega | simp [hi]

/-- A reserved command keeps its opcode. -/
theorem opField_reserved (w : Word) (h : 12 ≤ (opField w).toNat) :
    (Instr.reserved (w.extractLsb' 0 14)).opcode = opField w := by
  have key : ∀ n : Nibble, 12 ≤ n.toNat → 0b11#2 ++ n.extractLsb' 0 2 = n := by decide
  have e : (w.extractLsb' 0 14).extractLsb' 12 2 = (opField w).extractLsb' 0 2 := by
    apply BitVec.eq_of_getLsbD_eq
    intro i hi
    have h4 : i < 4 := by omega
    simp [opField, h4]
  simp only [Instr.opcode, e, key _ h]

/-- The opcode of a decoded command is the opcode field of its word (30_encoding.md R62). -/
theorem decode_opcode {left : Bool} {w : Word} {i : Instr} (h : decodeWith left w = .ok i) :
    i.opcode = opField w := by
  have num : ∀ (n : Nibble) (k : Nat), n.toNat = k → n = BitVec.ofNat 4 k := by
    intro n k e; rw [← e]; simp
  unfold decodeWith at h
  split at h
  case h_13 =>
    cases h
    apply opField_reserved
    by_contra low
    generalize (opField w).toNat = m at *
    interval_cases m <;> simp_all
  case h_12 e =>
    split at h
    · cases h; rw [num _ _ e]; rfl
    · cases h
  all_goals
    rename_i e
    rw [num _ _ e]
    first
    | obtain ⟨-, rfl⟩ := requireZero_eq_ok.mp h; rfl
    | obtain ⟨-, -, rfl⟩ := requireLeftShift_eq_ok.mp h; rfl
/-- A field of a word is zero exactly when the word has no bit of the field's mask (30_encoding.md R61, R68). -/
theorem field_eq_zero_iff {lo len : Nat} {mask : Word}
    (hm : ∀ i : Fin 16, mask.getLsbD i = decide (lo ≤ i.val ∧ i.val < lo + len)) (hl : lo + len ≤ 16) (w : Word) :
    w.extractLsb' lo len = 0#len ↔ w &&& mask = 0#16 := by
  constructor
  · intro h
    apply BitVec.eq_of_getLsbD_eq
    intro i hi
    rw [BitVec.getLsbD_and, hm ⟨i, hi⟩]
    by_cases hr : lo ≤ i ∧ i < lo + len
    · have := congrArg (fun v => BitVec.getLsbD v (i - lo)) h
      simp only [BitVec.getLsbD_extractLsb', BitVec.getLsbD_zero] at this
      rw [decide_eq_true (by omega), Bool.true_and, show lo + (i - lo) = i by omega] at this
      simp [this]
    · simp [hr]
  · intro h
    apply BitVec.eq_of_getLsbD_eq
    intro i hi
    have := congrArg (fun v => BitVec.getLsbD v (lo + i)) h
    simp only [BitVec.getLsbD_and, hm ⟨lo + i, by omega⟩, BitVec.getLsbD_zero] at this
    simp_all

/-- Format Z's zero field. -/
theorem formatZ_zero_iff (w : Word) : w.extractLsb' 0 12 = 0#12 ↔ w &&& 0x0FFF#16 = 0#16 :=
  field_eq_zero_iff (by decide) (by decide) w

/-- Format R's zero field. -/
theorem formatR_zero_iff (w : Word) : w.extractLsb' 0 8 = 0#8 ↔ w &&& 0x00FF#16 = 0#16 :=
  field_eq_zero_iff (by decide) (by decide) w

/-- Format C's zero field of TOGGLE and GET. -/
theorem formatC_zero_iff (w : Word) : w.extractLsb' 0 4 = 0#4 ↔ w &&& 0x000F#16 = 0#16 :=
  field_eq_zero_iff (by decide) (by decide) w

/-- Format C's zero field of SET. -/
theorem formatC_set_zero_iff (w : Word) : w.extractLsb' 1 3 = 0#3 ↔ w &&& 0x000E#16 = 0#16 :=
  field_eq_zero_iff (by decide) (by decide) w

end Sys2Proof
end

