-- ==== Sys2Proof/Laws/Operands.lean ====
section
/-! SUPPORT. What the operand forms and the framebuffer's updates do: one lemma per operation and view. -/

namespace Sys2Proof.Machine

theorem inBounds_eq_some {i : Nibble} {r : Fin 8} : inBounds i = some r ↔ i.toNat = r.val := by
  unfold inBounds
  split
  · simp [Fin.ext_iff]
  · rename_i h
    have := r.isLt
    simp only [false_iff, reduceCtorEq]
    omega

theorem inBounds_eq_none {i : Nibble} : inBounds i = none ↔ 7 < i.toNat := by
  unfold inBounds
  split <;> simp <;> omega

theorem cellOperand_eq_some {row col : Nibble} {r c : Fin 8} :
    cellOperand row col = some (r, c) ↔ row.toNat = r.val ∧ col.toNat = c.val := by
  rw [← inBounds_eq_some, ← inBounds_eq_some]
  unfold cellOperand
  split <;> simp_all

theorem cellOperand_eq_none {row col : Nibble} : cellOperand row col = none ↔ 7 < row.toNat ∨ 7 < col.toNat := by
  rw [← inBounds_eq_none, ← inBounds_eq_none]
  unfold cellOperand
  cases inBounds row <;> cases inBounds col <;> simp

/-- Two row values with the same columns are the same. -/
theorem byte_eq_of_columns {a b : Byte} (h : ∀ c, columnBit a c = columnBit b c) : a = b := by
  apply BitVec.eq_of_getLsbD_eq
  intro i hi
  have := h ⟨7 - i, by omega⟩
  have e : 7 - (7 - i) = i := by omega
  simpa [columnBit, e] using this

/-- Two framebuffers with the same rows are the same. -/
theorem fb_eq_of_rows {a b : FrameBuffer} (h : ∀ r, rowBits a r = rowBits b r) : a = b := by
  apply Vector.ext
  intro i hi
  simpa [rowBits] using h ⟨i, hi⟩

/-- Two framebuffers with the same cells are the same. -/
theorem fb_eq_of_cells {a b : FrameBuffer} (h : ∀ r c, cell a r c = cell b r c) : a = b :=
  fb_eq_of_rows fun r => byte_eq_of_columns (h r)

@[simp] theorem rowBits_clearBuffer (r : Fin 8) : rowBits clearBuffer r = 0#8 := by
  simp [rowBits, clearBuffer]

@[simp] theorem rowBits_mapRows (f : Byte → Byte) (fb : FrameBuffer) (r : Fin 8) :
    rowBits (mapRows f fb) r = f (rowBits fb r) := by
  fin_cases r <;> rfl

theorem rowBits_setCell (fb : FrameBuffer) (r c k : Fin 8) (lit : Bool) :
    rowBits (setCell fb r c lit) k = if k = r then setColumn (rowBits fb r) c lit else rowBits fb k := by
  simp only [rowBits, setCell, Fin.getElem_fin, Vector.getElem_set, Fin.ext_iff, eq_comm]

theorem columnMask_columnBit (c d : Fin 8) : columnBit (columnMask c) d = decide (d = c) := by
  revert c d; decide

theorem columnBit_setColumn (b : Byte) (c d : Fin 8) (lit : Bool) :
    columnBit (setColumn b c lit) d = if d = c then lit else columnBit b d := by
  have m := columnMask_columnBit c d
  have hd : 7 - d.val < 8 := by omega
  unfold columnBit at m
  unfold setColumn columnBit
  cases lit <;> by_cases e : d = c <;> simp_all

theorem cell_setCell (fb : FrameBuffer) (r c k d : Fin 8) (lit : Bool) :
    cell (setCell fb r c lit) k d = if k = r ∧ d = c then lit else cell fb k d := by
  unfold cell
  rw [rowBits_setCell]
  by_cases hk : k = r
  · subst hk; simp [columnBit_setColumn]
  · simp [hk]

theorem columnBit_zero (c : Fin 8) : columnBit 0#8 c = false := by simp [columnBit]

/-- A column of a row shifted right (41_shift_engine.md R101). -/
theorem columnBit_shr8 (b : Byte) (c : Fin 8) :
    columnBit (shr8 b) c = if c = 0 then false else columnBit b (c - 1) := by
  fin_cases c <;> simp [columnBit, shr8]

/-- A column of a row rotated right (41_shift_engine.md R102). -/
theorem columnBit_ror8 (b : Byte) (c : Fin 8) :
    columnBit (ror8 b) c = if c = 0 then columnBit b 7 else columnBit b (c - 1) := by
  change BitVec.getLsbD (w := 1 + 7) (b.extractLsb' 0 1 ++ b.extractLsb' 1 7) (7 - c.val) = _
  rw [BitVec.getLsbD_append]
  fin_cases c <;> simp [columnBit]

/-- A column of a row shifted left (41_shift_engine.md R103). -/
theorem columnBit_shl8 (b : Byte) (c : Fin 8) :
    columnBit (shl8 b) c = if c = 7 then false else columnBit b (c + 1) := by
  fin_cases c <;> simp [columnBit, shl8]

/-- A column of a row rotated left (41_shift_engine.md R104). -/
theorem columnBit_rol8 (b : Byte) (c : Fin 8) :
    columnBit (rol8 b) c = if c = 7 then columnBit b 0 else columnBit b (c + 1) := by
  change BitVec.getLsbD (w := 7 + 1) (b.extractLsb' 0 7 ++ b.extractLsb' 7 1) (7 - c.val) = _
  rw [BitVec.getLsbD_append]
  fin_cases c <;> simp [columnBit]

end Sys2Proof.Machine
end

