-- ==== Sys2Proof/Laws/State.lean ====
section
/-! SUPPORT. One lemma per field per update of the state, true by rfl, so that no later proof unfolds a record update. -/

namespace Sys2Proof.Machine

@[simp] theorem openCommand_fb (op : Nibble) (s : State) : (openCommand op s).fb = s.fb := rfl
@[simp] theorem openCommand_rsp (op : Nibble) (s : State) : (openCommand op s).rsp = s.rsp.accepted op := rfl
@[simp] theorem openCommand_rspValid (op : Nibble) (s : State) : (openCommand op s).rspValid = false := rfl
@[simp] theorem openCommand_phase (op : Nibble) (s : State) : (openCommand op s).phase = s.phase := rfl
@[simp] theorem openCommand_offer (op : Nibble) (s : State) : (openCommand op s).offer = s.offer := rfl
@[simp] theorem openCommand_waited (op : Nibble) (s : State) : (openCommand op s).waited = s.waited := rfl
@[simp] theorem openCommand_cmd (op : Nibble) (s : State) : (openCommand op s).cmd = s.cmd := rfl
@[simp] theorem openCommand_inp (op : Nibble) (s : State) : (openCommand op s).inp = s.inp := rfl
@[simp] theorem openCommand_host (op : Nibble) (s : State) : (openCommand op s).host = s.host := rfl
@[simp] theorem openCommand_sink (op : Nibble) (s : State) : (openCommand op s).sink = s.sink := rfl
@[simp] theorem openCommand_shown (op : Nibble) (s : State) : (openCommand op s).shown = s.shown := rfl
@[simp] theorem openCommand_draws (op : Nibble) (s : State) : (openCommand op s).draws = s.draws := rfl

@[simp] theorem complete_fb (data : Byte) (s : State) : (complete data s).fb = s.fb := rfl
@[simp] theorem complete_rsp (data : Byte) (s : State) : (complete data s).rsp = s.rsp.completed data := rfl
@[simp] theorem complete_rspValid (data : Byte) (s : State) : (complete data s).rspValid = true := rfl
@[simp] theorem complete_phase (data : Byte) (s : State) : (complete data s).phase = s.phase := rfl
@[simp] theorem complete_offer (data : Byte) (s : State) : (complete data s).offer = s.offer := rfl
@[simp] theorem complete_waited (data : Byte) (s : State) : (complete data s).waited = s.waited := rfl
@[simp] theorem complete_cmd (data : Byte) (s : State) : (complete data s).cmd = s.cmd := rfl
@[simp] theorem complete_inp (data : Byte) (s : State) : (complete data s).inp = s.inp := rfl
@[simp] theorem complete_host (data : Byte) (s : State) : (complete data s).host = s.host := rfl
@[simp] theorem complete_sink (data : Byte) (s : State) : (complete data s).sink = s.sink := rfl
@[simp] theorem complete_shown (data : Byte) (s : State) : (complete data s).shown = s.shown := rfl
@[simp] theorem complete_draws (data : Byte) (s : State) : (complete data s).draws = s.draws := rfl

@[simp] theorem raise_fb (e : Err) (info : Byte) (s : State) : (raise e info s).fb = s.fb := rfl
@[simp] theorem raise_rsp (e : Err) (info : Byte) (s : State) : (raise e info s).rsp = s.rsp.raised e info := rfl
@[simp] theorem raise_rspValid (e : Err) (info : Byte) (s : State) : (raise e info s).rspValid = true := rfl
@[simp] theorem raise_phase (e : Err) (info : Byte) (s : State) : (raise e info s).phase = .idle := rfl
@[simp] theorem raise_offer (e : Err) (info : Byte) (s : State) : (raise e info s).offer = none := rfl
@[simp] theorem raise_waited (e : Err) (info : Byte) (s : State) : (raise e info s).waited = 0 := rfl
@[simp] theorem raise_cmd (e : Err) (info : Byte) (s : State) : (raise e info s).cmd = s.cmd := rfl
@[simp] theorem raise_inp (e : Err) (info : Byte) (s : State) : (raise e info s).inp = s.inp := rfl
@[simp] theorem raise_host (e : Err) (info : Byte) (s : State) : (raise e info s).host = s.host := rfl
@[simp] theorem raise_sink (e : Err) (info : Byte) (s : State) : (raise e info s).sink = s.sink := rfl
@[simp] theorem raise_shown (e : Err) (info : Byte) (s : State) : (raise e info s).shown = s.shown := rfl
@[simp] theorem raise_draws (e : Err) (info : Byte) (s : State) : (raise e info s).draws = s.draws := rfl

@[simp] theorem startBus_fb (phase : Phase) (p : Pair) (s : State) : (startBus phase p s).fb = s.fb := rfl
@[simp] theorem startBus_rsp (phase : Phase) (p : Pair) (s : State) : (startBus phase p s).rsp = s.rsp := rfl
@[simp] theorem startBus_rspValid (phase : Phase) (p : Pair) (s : State) : (startBus phase p s).rspValid = false := rfl
@[simp] theorem startBus_phase (phase : Phase) (p : Pair) (s : State) : (startBus phase p s).phase = phase := rfl
@[simp] theorem startBus_offer (phase : Phase) (p : Pair) (s : State) : (startBus phase p s).offer = some p := rfl
@[simp] theorem startBus_waited (phase : Phase) (p : Pair) (s : State) : (startBus phase p s).waited = 0 := rfl
@[simp] theorem startBus_cmd (phase : Phase) (p : Pair) (s : State) : (startBus phase p s).cmd = s.cmd := rfl
@[simp] theorem startBus_inp (phase : Phase) (p : Pair) (s : State) : (startBus phase p s).inp = s.inp := rfl
@[simp] theorem startBus_host (phase : Phase) (p : Pair) (s : State) : (startBus phase p s).host = s.host := rfl
@[simp] theorem startBus_sink (phase : Phase) (p : Pair) (s : State) : (startBus phase p s).sink = s.sink := rfl
@[simp] theorem startBus_shown (phase : Phase) (p : Pair) (s : State) : (startBus phase p s).shown = s.shown := rfl
@[simp] theorem startBus_draws (phase : Phase) (p : Pair) (s : State) : (startBus phase p s).draws = s.draws := rfl

@[simp] theorem offerPair_fb (p : Pair) (s : State) : (offerPair p s).fb = s.fb := rfl
@[simp] theorem offerPair_rsp (p : Pair) (s : State) : (offerPair p s).rsp = s.rsp := rfl
@[simp] theorem offerPair_rspValid (p : Pair) (s : State) : (offerPair p s).rspValid = s.rspValid := rfl
@[simp] theorem offerPair_phase (p : Pair) (s : State) : (offerPair p s).phase = s.phase := rfl
@[simp] theorem offerPair_offer (p : Pair) (s : State) : (offerPair p s).offer = some p := rfl
@[simp] theorem offerPair_waited (p : Pair) (s : State) : (offerPair p s).waited = 0 := rfl
@[simp] theorem offerPair_cmd (p : Pair) (s : State) : (offerPair p s).cmd = s.cmd := rfl
@[simp] theorem offerPair_inp (p : Pair) (s : State) : (offerPair p s).inp = s.inp := rfl
@[simp] theorem offerPair_host (p : Pair) (s : State) : (offerPair p s).host = s.host := rfl
@[simp] theorem offerPair_sink (p : Pair) (s : State) : (offerPair p s).sink = s.sink := rfl
@[simp] theorem offerPair_shown (p : Pair) (s : State) : (offerPair p s).shown = s.shown := rfl
@[simp] theorem offerPair_draws (p : Pair) (s : State) : (offerPair p s).draws = s.draws := rfl

@[simp] theorem endOffer_fb (e : Ending) (s : State) : (endOffer e s).fb = s.fb := rfl
@[simp] theorem endOffer_rsp (e : Ending) (s : State) : (endOffer e s).rsp = s.rsp := rfl
@[simp] theorem endOffer_rspValid (e : Ending) (s : State) : (endOffer e s).rspValid = s.rspValid := rfl
@[simp] theorem endOffer_phase (e : Ending) (s : State) : (endOffer e s).phase = s.phase := rfl
@[simp] theorem endOffer_offer (e : Ending) (s : State) : (endOffer e s).offer = none := rfl
@[simp] theorem endOffer_waited (e : Ending) (s : State) : (endOffer e s).waited = 0 := rfl
@[simp] theorem endOffer_cmd (e : Ending) (s : State) : (endOffer e s).cmd = s.cmd := rfl
@[simp] theorem endOffer_inp (e : Ending) (s : State) : (endOffer e s).inp = s.inp := rfl
@[simp] theorem endOffer_host (e : Ending) (s : State) : (endOffer e s).host = s.host := rfl
@[simp] theorem endOffer_sink (e : Ending) (s : State) : (endOffer e s).sink = s.sink ++ endingEvents s.offer e := rfl
@[simp] theorem endOffer_shown (e : Ending) (s : State) : (endOffer e s).shown = s.shown := rfl
@[simp] theorem endOffer_draws (e : Ending) (s : State) : (endOffer e s).draws = s.draws := rfl

@[simp] theorem waitOn_fb (s : State) : (waitOn s).fb = s.fb := rfl
@[simp] theorem waitOn_rsp (s : State) : (waitOn s).rsp = s.rsp := rfl
@[simp] theorem waitOn_rspValid (s : State) : (waitOn s).rspValid = s.rspValid := rfl
@[simp] theorem waitOn_phase (s : State) : (waitOn s).phase = s.phase := rfl
@[simp] theorem waitOn_offer (s : State) : (waitOn s).offer = s.offer := rfl
@[simp] theorem waitOn_waited (s : State) : (waitOn s).waited = s.waited + 1 := rfl
@[simp] theorem waitOn_cmd (s : State) : (waitOn s).cmd = s.cmd := rfl
@[simp] theorem waitOn_inp (s : State) : (waitOn s).inp = s.inp := rfl
@[simp] theorem waitOn_host (s : State) : (waitOn s).host = s.host := rfl
@[simp] theorem waitOn_sink (s : State) : (waitOn s).sink = s.sink := rfl
@[simp] theorem waitOn_shown (s : State) : (waitOn s).shown = s.shown := rfl
@[simp] theorem waitOn_draws (s : State) : (waitOn s).draws = s.draws := rfl

@[simp] theorem resetBlock_fb (received : Bool) (s : State) : (resetBlock received s).fb = State.reset.fb := rfl
@[simp] theorem resetBlock_rsp (received : Bool) (s : State) : (resetBlock received s).rsp = State.reset.rsp := rfl
@[simp] theorem resetBlock_rspValid (received : Bool) (s : State) : (resetBlock received s).rspValid = false := rfl
@[simp] theorem resetBlock_phase (received : Bool) (s : State) : (resetBlock received s).phase = .idle := rfl
@[simp] theorem resetBlock_offer (received : Bool) (s : State) : (resetBlock received s).offer = none := rfl
@[simp] theorem resetBlock_waited (received : Bool) (s : State) : (resetBlock received s).waited = 0 := rfl
@[simp] theorem resetBlock_cmd (received : Bool) (s : State) : (resetBlock received s).cmd = none := rfl
@[simp] theorem resetBlock_inp (received : Bool) (s : State) : (resetBlock received s).inp = s.inp := rfl
@[simp] theorem resetBlock_host (received : Bool) (s : State) : (resetBlock received s).host = HostAgent.initial := rfl
@[simp] theorem resetBlock_sink (received : Bool) (s : State) : (resetBlock received s).sink = s.sink ++ endingEvents s.offer (.withdrawn received) := rfl
@[simp] theorem resetBlock_shown (received : Bool) (s : State) : (resetBlock received s).shown = s.shown := rfl
@[simp] theorem resetBlock_draws (received : Bool) (s : State) : (resetBlock received s).draws = s.draws := rfl

@[simp] theorem sample_fb (s : State) : s.sample.fb = s.fb := rfl
@[simp] theorem sample_rsp (s : State) : s.sample.rsp = s.rsp := rfl
@[simp] theorem sample_rspValid (s : State) : s.sample.rspValid = false := rfl
@[simp] theorem sample_phase (s : State) : s.sample.phase = s.phase := rfl
@[simp] theorem sample_offer (s : State) : s.sample.offer = s.offer := rfl
@[simp] theorem sample_waited (s : State) : s.sample.waited = s.waited := rfl
@[simp] theorem sample_cmd (s : State) : s.sample.cmd = s.cmd := rfl
@[simp] theorem sample_inp (s : State) : s.sample.inp = Config.freeInputs s.draws := rfl
@[simp] theorem sample_host (s : State) : s.sample.host = s.host.enqueue s.inp.request := rfl
@[simp] theorem sample_sink (s : State) : s.sample.sink = s.sink := rfl
@[simp] theorem sample_shown (s : State) : s.sample.shown = s.shown := rfl
@[simp] theorem sample_draws (s : State) : s.sample.draws = s.draws + 1 := rfl

@[simp] theorem takeCommand_fb (s : State) : s.takeCommand.fb = s.fb := rfl
@[simp] theorem takeCommand_rsp (s : State) : s.takeCommand.rsp = s.rsp := rfl
@[simp] theorem takeCommand_rspValid (s : State) : s.takeCommand.rspValid = s.rspValid := rfl
@[simp] theorem takeCommand_phase (s : State) : s.takeCommand.phase = s.phase := rfl
@[simp] theorem takeCommand_offer (s : State) : s.takeCommand.offer = s.offer := rfl
@[simp] theorem takeCommand_waited (s : State) : s.takeCommand.waited = s.waited := rfl
@[simp] theorem takeCommand_cmd (s : State) : s.takeCommand.cmd = none := rfl
@[simp] theorem takeCommand_inp (s : State) : s.takeCommand.inp = s.inp := rfl
@[simp] theorem takeCommand_host (s : State) : s.takeCommand.host = s.host := rfl
@[simp] theorem takeCommand_sink (s : State) : s.takeCommand.sink = s.sink := rfl
@[simp] theorem takeCommand_shown (s : State) : s.takeCommand.shown = s.shown := rfl
@[simp] theorem takeCommand_draws (s : State) : s.takeCommand.draws = s.draws := rfl

@[simp] theorem issueWord_fb (w : Word) (job : Job) (s : State) : (issueWord w job s).fb = s.fb := rfl
@[simp] theorem issueWord_rsp (w : Word) (job : Job) (s : State) : (issueWord w job s).rsp = s.rsp := rfl
@[simp] theorem issueWord_rspValid (w : Word) (job : Job) (s : State) : (issueWord w job s).rspValid = s.rspValid := rfl
@[simp] theorem issueWord_phase (w : Word) (job : Job) (s : State) : (issueWord w job s).phase = s.phase := rfl
@[simp] theorem issueWord_offer (w : Word) (job : Job) (s : State) : (issueWord w job s).offer = s.offer := rfl
@[simp] theorem issueWord_waited (w : Word) (job : Job) (s : State) : (issueWord w job s).waited = s.waited := rfl
@[simp] theorem issueWord_cmd (w : Word) (job : Job) (s : State) : (issueWord w job s).cmd = some w := rfl
@[simp] theorem issueWord_inp (w : Word) (job : Job) (s : State) : (issueWord w job s).inp = s.inp := rfl
@[simp] theorem issueWord_host (w : Word) (job : Job) (s : State) : (issueWord w job s).host = { s.host with job := job } := rfl
@[simp] theorem issueWord_sink (w : Word) (job : Job) (s : State) : (issueWord w job s).sink = s.sink := rfl
@[simp] theorem issueWord_shown (w : Word) (job : Job) (s : State) : (issueWord w job s).shown = s.shown := rfl
@[simp] theorem issueWord_draws (w : Word) (job : Job) (s : State) : (issueWord w job s).draws = s.draws := rfl

@[simp] theorem goOn_fb (job : Job) (s : State) : (goOn job s).fb = s.fb := rfl
@[simp] theorem goOn_rsp (job : Job) (s : State) : (goOn job s).rsp = s.rsp := rfl
@[simp] theorem goOn_rspValid (job : Job) (s : State) : (goOn job s).rspValid = s.rspValid := rfl
@[simp] theorem goOn_phase (job : Job) (s : State) : (goOn job s).phase = s.phase := rfl
@[simp] theorem goOn_offer (job : Job) (s : State) : (goOn job s).offer = s.offer := rfl
@[simp] theorem goOn_waited (job : Job) (s : State) : (goOn job s).waited = s.waited := rfl
@[simp] theorem goOn_cmd (job : Job) (s : State) : (goOn job s).cmd = s.cmd := rfl
@[simp] theorem goOn_inp (job : Job) (s : State) : (goOn job s).inp = s.inp := rfl
@[simp] theorem goOn_host (job : Job) (s : State) : (goOn job s).host = { s.host with job := job } := rfl
@[simp] theorem goOn_sink (job : Job) (s : State) : (goOn job s).sink = s.sink := rfl
@[simp] theorem goOn_shown (job : Job) (s : State) : (goOn job s).shown = s.shown := rfl
@[simp] theorem goOn_draws (job : Job) (s : State) : (goOn job s).draws = s.draws := rfl

@[simp] theorem stopLoop_fb (s : State) : (stopLoop s).fb = s.fb := rfl
@[simp] theorem stopLoop_rsp (s : State) : (stopLoop s).rsp = s.rsp := rfl
@[simp] theorem stopLoop_rspValid (s : State) : (stopLoop s).rspValid = s.rspValid := rfl
@[simp] theorem stopLoop_phase (s : State) : (stopLoop s).phase = s.phase := rfl
@[simp] theorem stopLoop_offer (s : State) : (stopLoop s).offer = s.offer := rfl
@[simp] theorem stopLoop_waited (s : State) : (stopLoop s).waited = s.waited := rfl
@[simp] theorem stopLoop_cmd (s : State) : (stopLoop s).cmd = s.cmd := rfl
@[simp] theorem stopLoop_inp (s : State) : (stopLoop s).inp = s.inp := rfl
@[simp] theorem stopLoop_host (s : State) : (stopLoop s).host = { s.host with mode := .stopped, job := .free } := rfl
@[simp] theorem stopLoop_sink (s : State) : (stopLoop s).sink = s.sink := rfl
@[simp] theorem stopLoop_shown (s : State) : (stopLoop s).shown = s.shown := rfl
@[simp] theorem stopLoop_draws (s : State) : (stopLoop s).draws = s.draws := rfl

@[simp] theorem surface_fb (e : HostError) (s : State) : (surface e s).fb = s.fb := rfl
@[simp] theorem surface_rsp (e : HostError) (s : State) : (surface e s).rsp = s.rsp := rfl
@[simp] theorem surface_rspValid (e : HostError) (s : State) : (surface e s).rspValid = s.rspValid := rfl
@[simp] theorem surface_phase (e : HostError) (s : State) : (surface e s).phase = s.phase := rfl
@[simp] theorem surface_offer (e : HostError) (s : State) : (surface e s).offer = s.offer := rfl
@[simp] theorem surface_waited (e : HostError) (s : State) : (surface e s).waited = s.waited := rfl
@[simp] theorem surface_cmd (e : HostError) (s : State) : (surface e s).cmd = s.cmd := rfl
@[simp] theorem surface_inp (e : HostError) (s : State) : (surface e s).inp = s.inp := rfl
@[simp] theorem surface_host (e : HostError) (s : State) : (surface e s).host = { s.host with errors := s.host.errors ++ [e] } := rfl
@[simp] theorem surface_sink (e : HostError) (s : State) : (surface e s).sink = s.sink := rfl
@[simp] theorem surface_shown (e : HostError) (s : State) : (surface e s).shown = s.shown := rfl
@[simp] theorem surface_draws (e : HostError) (s : State) : (surface e s).draws = s.draws := rfl

@[simp] theorem Rsp.accepted_op (r : Rsp) (op : Nibble) : (r.accepted op).op = op := rfl
@[simp] theorem Rsp.accepted_sticky (r : Rsp) (op : Nibble) : (r.accepted op).sticky = r.sticky := rfl
@[simp] theorem Rsp.accepted_status (r : Rsp) (op : Nibble) : (r.accepted op).status = r.status := rfl
@[simp] theorem Rsp.accepted_data (r : Rsp) (op : Nibble) : (r.accepted op).data = r.data := rfl

@[simp] theorem Rsp.completed_op (r : Rsp) (data : Byte) : (r.completed data).op = r.op := rfl
@[simp] theorem Rsp.completed_sticky (r : Rsp) (data : Byte) : (r.completed data).sticky = r.sticky := rfl
@[simp] theorem Rsp.completed_status (r : Rsp) (data : Byte) : (r.completed data).status = .ok := rfl
@[simp] theorem Rsp.completed_data (r : Rsp) (data : Byte) : (r.completed data).data = data := rfl

@[simp] theorem Rsp.raised_op (r : Rsp) (e : Err) (info : Byte) : (r.raised e info).op = r.op := rfl
@[simp] theorem Rsp.raised_sticky (r : Rsp) (e : Err) (info : Byte) : (r.raised e info).sticky = true := rfl
@[simp] theorem Rsp.raised_status (r : Rsp) (e : Err) (info : Byte) : (r.raised e info).status = e.status := rfl
@[simp] theorem Rsp.raised_data (r : Rsp) (e : Err) (info : Byte) : (r.raised e info).data = info := rfl

@[simp] theorem HostAgent.enqueue_mode (h : HostAgent) (r : Option Request) : (h.enqueue r).mode = h.mode := rfl
@[simp] theorem HostAgent.enqueue_period (h : HostAgent) (r : Option Request) : (h.enqueue r).period = h.period := rfl
@[simp] theorem HostAgent.enqueue_setup (h : HostAgent) (r : Option Request) : (h.enqueue r).setup = h.setup := rfl
@[simp] theorem HostAgent.enqueue_job (h : HostAgent) (r : Option Request) : (h.enqueue r).job = h.job := rfl
@[simp] theorem HostAgent.enqueue_queue (h : HostAgent) (r : Option Request) :
    (h.enqueue r).queue = h.queue ++ r.toList := rfl
@[simp] theorem HostAgent.enqueue_errors (h : HostAgent) (r : Option Request) : (h.enqueue r).errors = h.errors := rfl

end Sys2Proof.Machine
end

