-- ==== Sys2Proof/Laws/Exec.lean ====
section
/-! SUPPORT. What the meanings with an index operand do on each outcome of the bounds check, and a framebuffer's cells after
a map of its rows. The other meanings are one expression each. -/

namespace Sys2Proof.Machine

@[simp] theorem inBounds_indexNibble (r : Fin 8) : inBounds (indexNibble r) = some r := by
  revert r; decide

@[simp] theorem cellOperand_indexNibble (r c : Fin 8) :
    cellOperand (indexNibble r) (indexNibble c) = some (r, c) := by
  simp [cellOperand]

theorem cellOperand_outOfRange {row col : Nibble} (h : OutOfRange row ∨ OutOfRange col) :
    cellOperand row col = none := cellOperand_eq_none.mpr h

theorem cell_mapRows (f : Byte → Byte) (fb : FrameBuffer) (r c : Fin 8) :
    cell (mapRows f fb) r c = columnBit (f (rowBits fb r)) c := by
  simp [cell]

theorem ror8_eq_rotateRight (b : Byte) : ror8 b = b.rotateRight 1 := by
  revert b; decide

theorem rol8_eq_rotateLeft (b : Byte) : rol8 b = b.rotateLeft 1 := by
  revert b; decide

variable {row col : Nibble} {r c : Fin 8}

theorem exec_set_some (h : cellOperand row col = some (r, c)) (lit : Bool) (s : State) :
    exec (.set row col lit) s =
      .next (complete 0#8 { openCommand 0x2#4 s with fb := setCell s.fb r c lit }) := by
  simp only [exec, execSet, h]

theorem exec_set_none (h : cellOperand row col = none) (lit : Bool) (s : State) :
    exec (.set row col lit) s = .next (raise .outOfBounds 0#8 (openCommand 0x2#4 s)) := by
  simp only [exec, execSet, h]

theorem exec_toggle_some (h : cellOperand row col = some (r, c)) (s : State) :
    exec (.toggle row col) s =
      .next (complete 0#8 { openCommand 0x3#4 s with fb := setCell s.fb r c (!cell s.fb r c) }) := by
  simp only [exec, execToggle, h]

theorem exec_toggle_none (h : cellOperand row col = none) (s : State) :
    exec (.toggle row col) s = .next (raise .outOfBounds 0#8 (openCommand 0x3#4 s)) := by
  simp only [exec, execToggle, h]

theorem exec_get_some (h : cellOperand row col = some (r, c)) (s : State) :
    exec (.get row col) s =
      .next (complete ((BitVec.ofBool (cell s.fb r c)).setWidth 8) (openCommand 0x4#4 s)) := by
  simp only [exec, execGet, h]

theorem exec_get_none (h : cellOperand row col = none) (s : State) :
    exec (.get row col) s = .next (raise .outOfBounds 0#8 (openCommand 0x4#4 s)) := by
  simp only [exec, execGet, h]

theorem exec_rowbits_some (h : inBounds row = some r) (s : State) :
    exec (.rowbits row) s = .next (complete (rowBits s.fb r) (openCommand 0x5#4 s)) := by
  simp only [exec, execRowbits, h]

theorem exec_rowbits_none (h : inBounds row = none) (s : State) :
    exec (.rowbits row) s = .next (raise .outOfBounds 0#8 (openCommand 0x5#4 s)) := by
  simp only [exec, execRowbits, h]

end Sys2Proof.Machine
end

