-- ==== Sys2Proof/Laws/Ops.lean ====
section
/-! SUPPORT. What each shared operation can do, once: the bus turn, the turns of FLUSH and EMIT, the shared body of the
shifts, and the host agent's moves, which never touch the block. -/

namespace Sys2Proof.Machine

/-- How an offer ends in one step: answered, or timed out, or not yet (42_row_serializer.md R127). -/
theorem busTurn_eq_some {timeout : Option Nat} {ack err : Bool} {waited : Nat} {e : Ending} :
    busTurn timeout ack err waited = some e ↔
      (ack = true ∧ err = false ∧ e = .ok) ∨ (ack = true ∧ err = true ∧ e = .err) ∨
        (ack = false ∧ timeout = some waited ∧ e = .timedOut) := by
  unfold busTurn
  cases ack <;> cases err <;> by_cases h : timeout = some waited <;> simp [h, eq_comm]

theorem busTurn_eq_none {timeout : Option Nat} {ack err : Bool} {waited : Nat} :
    busTurn timeout ack err waited = none ↔ ack = false ∧ timeout ≠ some waited := by
  unfold busTurn
  cases ack <;> by_cases h : timeout = some waited <;> simp [h]

/-- One bus-wait step of a FLUSH waits on, advances after an `ok`, or raises `BusError` with the count. -/
theorem flushTurn_cases (timeout : Option Nat) (ack err : Bool) (k : Fin 8) (n : Fin 9) (s : State) :
    (busTurn timeout ack err s.waited = none ∧ flushTurn timeout ack err k n s = waitOn s) ∨
      (busTurn timeout ack err s.waited = some .ok ∧
        flushTurn timeout ack err k n s = flushAdvance k n (endOffer .ok s)) ∨
      (∃ e, busTurn timeout ack err s.waited = some e ∧ e ≠ .ok ∧
        flushTurn timeout ack err k n s = raise .busError (countByte n) (openCommand 0xA#4 (endOffer e s))) := by
  unfold flushTurn
  cases h : busTurn timeout ack err s.waited with
  | none => simp
  | some e => cases e <;> simp

/-- One bus-wait step of an EMIT waits on, completes after an `ok`, or raises `BusError`. -/
theorem emitTurn_cases (timeout : Option Nat) (ack err : Bool) (s : State) :
    (busTurn timeout ack err s.waited = none ∧ emitTurn timeout ack err s = waitOn s) ∨
      (busTurn timeout ack err s.waited = some .ok ∧
        emitTurn timeout ack err s = complete 1#8 (openCommand 0xB#4 { endOffer .ok s with phase := .idle })) ∨
      (∃ e, busTurn timeout ack err s.waited = some e ∧ e ≠ .ok ∧
        emitTurn timeout ack err s = raise .busError 0#8 (openCommand 0xB#4 (endOffer e s))) := by
  unfold emitTurn
  cases h : busTurn timeout ack err s.waited with
  | none => simp
  | some e => cases e <;> simp

/-- After an `ok` for the last row the FLUSH completes. -/
theorem flushAdvance_last (n : Fin 9) (s : State) :
    flushAdvance 7 n s = complete (countByte (n + 1)) (openCommand 0xA#4 { s with phase := .idle }) := rfl

/-- After an `ok` for an earlier row the next row's pair is offered. -/
theorem flushAdvance_more {k : Fin 8} (h : k ≠ 7) (n : Fin 9) (s : State) :
    flushAdvance k n s = offerPair (rowPair s.fb (k + 1)) { s with phase := .flushing (k + 1) (n + 1) } := by
  simp [flushAdvance, h]

/-- The shared body of the shifts. -/
theorem shiftRows_eq (op : Nibble) (f : Byte → Byte) (s : State) :
    shiftRows op f s =
      { s with
        fb := mapRows f s.fb
        rsp := { op := op, sticky := s.rsp.sticky, status := .ok, data := 0#8 }
        rspValid := true } := rfl

/-- A word that decodes to no command: the whole next state. -/
theorem illegalCommand_eq (op : Nibble) (s : State) :
    illegalCommand op s =
      { s with
        rsp := { op := op, sticky := true, status := .illegalCommand, data := 0#8 }
        rspValid := true
        offer := none
        waited := 0
        phase := .idle } := rfl

/-- Serving a request never touches the block. -/
theorem serve_block (p : Params) (r : Request) (resume : Option Nat) (s : State) :
    ∃ cmd host, serve p r resume s = { s with cmd := cmd, host := host } := by
  unfold serve
  cases r with
  | setSpeed => dsimp only; split <;> exact ⟨_, _, rfl⟩
  | start => dsimp only; split <;> exact ⟨_, _, rfl⟩
  | beginSetup => dsimp only; split <;> exact ⟨_, _, rfl⟩
  | _ => exact ⟨_, _, rfl⟩

/-- A move of the host agent changes the command port, the host itself and what the Display Sink was shown, and
nothing of the block (10_state.md R22). -/
theorem hostMove_block (p : Params) (elapsed responded : Bool) (s : State) :
    ∃ cmd host shown, hostMove p elapsed responded s = { s with cmd := cmd, host := host, shown := shown } := by
  have served : ∀ r rest resume, ∃ cmd host shown,
      serveNext p r rest resume s = { s with cmd := cmd, host := host, shown := shown } := by
    intro r rest resume
    obtain ⟨cmd, host, h⟩ := serve_block p r resume { s with host := { s.host with queue := rest } }
    exact ⟨cmd, host, s.shown, by rw [serveNext, h]⟩
  unfold hostMove
  split
  · split
    · exact served _ _ _
    · split <;> exact ⟨_, _, _, rfl⟩
  · split
    · exact served _ _ _
    · split <;> exact ⟨_, _, _, rfl⟩
  · split
    · unfold setupResponse; repeat' split
      all_goals exact ⟨_, _, _, rfl⟩
    · exact ⟨_, _, _, rfl⟩
  · split <;> exact ⟨_, _, _, rfl⟩
  · split
    · unfold tickResponse; split <;> exact ⟨_, _, _, rfl⟩
    · exact ⟨_, _, _, rfl⟩
  · split
    · unfold servedResponse; split <;> exact ⟨_, _, _, rfl⟩
    · exact ⟨_, _, _, rfl⟩

end Sys2Proof.Machine
end

