-- ==== Sys2Proof/Laws/PerInstr.lean ====
section
/-! SUPPORT. The statements made once per command: the opcode field of a command's word is its opcode (30_encoding.md R61,
R62), which is what its meaning echoes in `rsp.op` (D30). -/

namespace Sys2Proof.Laws.OpcodeField

/-- Bits 15..12 of the word of a command are its opcode (30_encoding.md R61). -/
def Statement (i : Instr) : Prop := opField (encode i) = i.opcode

theorem nop : Statement .nop := rfl

theorem clear : Statement .clear := rfl

theorem set (row col : Nibble) (lit : Bool) : Statement (.set row col lit) := by
  have low : encode (.set row col lit) = 0x2#4 ++ row ++ col ++ (0#3 ++ BitVec.ofBool lit) := by
    revert row col lit; decide
  rw [Statement, low]
  exact opField_nibbles _ _ _ _

theorem toggle (row col : Nibble) : Statement (.toggle row col) := opField_nibbles _ _ _ _

theorem get (row col : Nibble) : Statement (.get row col) := opField_nibbles _ _ _ _

theorem rowbits (row : Nibble) : Statement (.rowbits row) := by
  revert row; unfold Statement; decide

theorem shrdrop : Statement .shrdrop := rfl

theorem shrloop : Statement .shrloop := rfl

theorem shldrop : Statement .shldrop := rfl

theorem shlloop : Statement .shlloop := rfl

theorem flush : Statement .flush := rfl

theorem emit (reg : DevReg) (value : Byte) : Statement (.emit reg value) := by
  apply BitVec.eq_of_getLsbD_eq
  intro i hi
  simp only [encode, Instr.opcode, opField, BitVec.getLsbD_extractLsb', hi, decide_true, Bool.true_and]
  change BitVec.getLsbD (w := 4 + 4 + 8) (0xB#4 ++ reg.number ++ value) (12 + i) = _
  rw [BitVec.getLsbD_append, BitVec.getLsbD_append, if_neg (by omega), if_neg (by omega)]
  congr 1
  omega

theorem reserved (low : BitVec 14) : Statement (.reserved low) := by
  apply BitVec.eq_of_getLsbD_eq
  intro i hi
  simp only [encode, Instr.opcode, opField, BitVec.getLsbD_extractLsb', hi, decide_true, Bool.true_and]
  change BitVec.getLsbD (w := 2 + 14) (0b11#2 ++ low) (12 + i) =
    BitVec.getLsbD (w := 2 + 2) (0b11#2 ++ low.extractLsb' 12 2) i
  rw [BitVec.getLsbD_append, BitVec.getLsbD_append]
  by_cases two : i < 2
  · rw [if_pos (by omega), if_pos two, BitVec.getLsbD_extractLsb', decide_eq_true two, Bool.true_and]
  · rw [if_neg (by omega), if_neg two]
    congr 1
    omega

end Sys2Proof.Laws.OpcodeField
end

