-- ==== Sys2Proof/Laws/Step.lean ====
section
/-! SUPPORT. What a step can do, once: the reset, a bus turn, an accepted word, or a move of the host agent. -/

namespace Sys2Proof.Machine

/-- The five kinds of step (log entry 15), each with what selects it. -/
theorem stepWith_cases (p : Params) (s : State) :
    (s.inp.rst = true ∧ stepWith p s = .next (resetBlock (Config.freeReceived s.draws) s.sample)) ∨
      (s.inp.rst = false ∧ ∃ k n, s.phase = .flushing k n ∧
        stepWith p s = .next (flushTurn p.busTimeout s.inp.busAck s.inp.busErr k n s.sample)) ∨
      (s.inp.rst = false ∧ s.phase = .emitting ∧
        stepWith p s = .next (emitTurn p.busTimeout s.inp.busAck s.inp.busErr s.sample)) ∨
      (s.inp.rst = false ∧ s.phase = .idle ∧ ∃ w, s.cmd = some w ∧ stepWith p s = acceptWord p w s.sample) ∨
      (s.inp.rst = false ∧ s.phase = .idle ∧ s.cmd = none ∧
        stepWith p s = .next (hostMove p s.inp.elapsed s.rspValid s.sample)) := by
  unfold stepWith
  cases hr : s.inp.rst with
  | true => simp
  | false =>
    cases hp : s.phase with
    | flushing k n => simp
    | emitting => simp
    | idle => cases hc : s.cmd <;> simp

/-- A step that accepts a word. -/
theorem stepWith_accepts (p : Params) {s : State} {w : Word} (h : Accepts s w) :
    stepWith p s = acceptWord p w s.sample := by
  obtain ⟨hr, hp, hc⟩ := h
  simp [stepWith, hr, hp, hc]

/-- A step that is a move of the host agent. -/
theorem stepWith_hostTurn (p : Params) {s : State} (h : HostTurn s) :
    stepWith p s = .next (hostMove p s.inp.elapsed s.rspValid s.sample) := by
  obtain ⟨hr, hp, hc⟩ := h
  simp [stepWith, hr, hp, hc]

/-- The host's requests in its move are those pending in the step. -/
@[simp] theorem sample_queue (s : State) : s.sample.host.queue = pendingRequests s := rfl

/-- An accepted word runs the command it decodes to, or raises `IllegalCommand`. -/
theorem acceptWord_cases (p : Params) (w : Word) (s : State) :
    (∃ i, decodeWith p.leftShiftPresent w = .ok i ∧ acceptWord p w s = exec i s.takeCommand) ∨
      (∃ e, decodeWith p.leftShiftPresent w = .error e ∧
        acceptWord p w s = .next (illegalCommand (opField w) s.takeCommand)) := by
  unfold acceptWord
  cases decodeWith p.leftShiftPresent w <;> simp

/-- The next states of the commands that complete or raise in the step that accepts them: only the framebuffer, the
response and the sequencing state can differ, and the block is left idle or as it was (40_pixel_buffer.md R80). -/
theorem exec_cases (i : Instr) (s : State) :
    (∃ fb data, exec i s = .next (complete data { openCommand i.opcode s with fb := fb })) ∨
      (∃ e, exec i s = .next (raise e 0#8 (openCommand i.opcode s))) ∨
      (i = .flush ∧ exec i s = .next (startBus (.flushing 0 0) (rowPair s.fb 0) s)) ∨
      (∃ reg value, i = .emit reg value ∧
        exec i s = .next (startBus .emitting (commandPair reg value) s)) := by
  cases i with
  | nop => exact .inl ⟨s.fb, _, rfl⟩
  | clear => exact .inl ⟨_, _, rfl⟩
  | set row col lit =>
    cases h : cellOperand row col with
    | some rc => exact .inl ⟨_, _, exec_set_some h _ s⟩
    | none => exact .inr (.inl ⟨.outOfBounds, exec_set_none h _ s⟩)
  | toggle row col =>
    cases h : cellOperand row col with
    | some rc => exact .inl ⟨_, _, exec_toggle_some h s⟩
    | none => exact .inr (.inl ⟨.outOfBounds, exec_toggle_none h s⟩)
  | get row col =>
    cases h : cellOperand row col with
    | some rc => exact .inl ⟨s.fb, _, exec_get_some h s⟩
    | none => exact .inr (.inl ⟨.outOfBounds, exec_get_none h s⟩)
  | rowbits row =>
    cases h : inBounds row with
    | some r => exact .inl ⟨s.fb, _, exec_rowbits_some h s⟩
    | none => exact .inr (.inl ⟨.outOfBounds, exec_rowbits_none h s⟩)
  | shrdrop => exact .inl ⟨_, _, rfl⟩
  | shrloop => exact .inl ⟨_, _, rfl⟩
  | shldrop => exact .inl ⟨_, _, rfl⟩
  | shlloop => exact .inl ⟨_, _, rfl⟩
  | flush => exact .inr (.inr (.inl ⟨rfl, rfl⟩))
  | emit reg value => exact .inr (.inr (.inr ⟨reg, value, rfl, rfl⟩))
  | reserved low => exact .inr (.inl ⟨.illegalCommand, rfl⟩)

end Sys2Proof.Machine
end

