-- ==== Sys2Proof/Tests/Slice0.lean ====
section
/-! SUPPORT. Small tests: words written out from 30_encoding.md and 95_test_vectors.md, one step each, and for every
obligation with hypotheses a witness that meets them. Expected values are those of the spec's tables and examples. -/

namespace Sys2Proof.Tests

open Sys2Proof Sys2Proof.Machine

/-! Helpers. -/

/-- The outcome is a next state in which `f` holds. -/
def nextHas (o : Outcome) (f : State → Bool) : Bool :=
  match o with
  | .next t => f t
  | _ => false

/-- The reset state with a framebuffer of the given rows. -/
def withRows (rows : FrameBuffer) : State := { State.reset with fb := rows }

/-- The diagonal of 95_test_vectors.md L1.5. -/
def diagonal : FrameBuffer := #v[0x80#8, 0x40#8, 0x20#8, 0x10#8, 0x08#8, 0x04#8, 0x02#8, 0x01#8]

/-- The row values of 95_test_vectors.md L2.2. -/
def shiftRowsBefore : FrameBuffer := #v[0x00#8, 0x01#8, 0x80#8, 0x81#8, 0xA0#8, 0xFF#8, 0x55#8, 0x3C#8]

/-- A command run as the first instruction on a state: the response word and the snapshot it leaves. -/
def leaves (s : State) (w : Nat) (rsp : Word) (fbq : BitVec 64) : Bool :=
  nextHas (step (s.withFetchWord 16 w)) fun t => t.rspWord = rsp && t.fbQ = fbq && t.rspValid

/-- A block with a timeout of three wait steps. -/
def timed : Params := { leftShiftPresent := true, busTimeout := some 3, periodMax := 1000 }

/-- A block without a timeout. -/
def untimed : Params := { leftShiftPresent := true, busTimeout := none, periodMax := 1000 }

/-- A block without left shifts. -/
def rightOnly : Params := { leftShiftPresent := false, busTimeout := none, periodMax := 1000 }

/-- A FLUSH of the diagonal that offers row `k`. -/
def flushAt (k : Fin 8) : State :=
  { withRows diagonal with
    phase := .flushing k k.castSucc
    offer := some (rowPair diagonal k) }

/-- `EMIT SCANLIMIT, 7` in progress. -/
def emitting : State :=
  { State.reset with
    phase := .emitting
    offer := some { reg := 0x0B#8, value := 0x07#8 } }

/-- A state with an answer of the Bus Sink on the ports. -/
def answered (r : SinkReply) (s : State) : State := { s with inp := r.onPorts s.inp }

/-- A block that is offered a word. -/
def offered (w : Word) : State := { State.reset with cmd := some w }

/-- A host agent in a job, with requests, and the setup done when it runs. -/
def hostAt (mode : Mode) (setup : Setup) (job : Job) (queue : List Request) : State :=
  { State.reset with
    host := { mode := mode, period := 20, setup := setup, job := job, queue := queue, errors := [] } }

/-- A running host in the wait of a tick whose period elapses in this step. -/
def tickDue : State :=
  { hostAt .running .done (.waiting 20) [] with fb := diagonal, inp := { Inputs.quiet with elapsed := true } }

/-! Decoding: words written out bit by bit from 30_encoding.md R61 and R66. -/

theorem test_decode_nop : decode 0b0000000000000000#16 = .ok .nop := by decide
theorem test_decode_clear : decode 0b0001000000000000#16 = .ok .clear := by decide
theorem test_decode_set : decode 0b0010010101110001#16 = .ok (.set 5#4 7#4 true) := by decide
theorem test_decode_set_unlit : decode 0b0010111100000000#16 = .ok (.set 15#4 0#4 false) := by decide
theorem test_decode_toggle : decode 0b0011001101000000#16 = .ok (.toggle 3#4 4#4) := by decide
theorem test_decode_get : decode 0b0100000111110000#16 = .ok (.get 1#4 15#4) := by decide
theorem test_decode_rowbits : decode 0b0101011000000000#16 = .ok (.rowbits 6#4) := by decide
theorem test_decode_shrdrop : decode 0b0110000000000000#16 = .ok .shrdrop := by decide
theorem test_decode_shrloop : decode 0b0111000000000000#16 = .ok .shrloop := by decide
theorem test_decode_shldrop : decode 0b1000000000000000#16 = .ok .shldrop := by decide
theorem test_decode_shlloop : decode 0b1001000000000000#16 = .ok .shlloop := by decide
theorem test_decode_flush : decode 0b1010000000000000#16 = .ok .flush := by decide
theorem test_decode_emit : decode 0b1011110000000001#16 = .ok (.emit .shutdown 1#8) := by decide
theorem test_decode_emit_row : decode 0b1011000110101010#16 = .ok (.emit (.row 0) 0xAA#8) := by decide
theorem test_decode_reserved : decode 0b1111000100100011#16 = .ok (.reserved 0b11000100100011#14) := by decide
theorem test_encode_set : encode (.set 5#4 7#4 true) = 0b0010010101110001#16 := by decide
theorem test_encode_emit : encode (.emit .displayTest 0#8) = 0b1011111100000000#16 := by decide

/-- 30_encoding.md R68's examples, R69, R67. -/
theorem test_decode_refuses :
    [0x0001#16, 0x2002#16, 0x3001#16, 0x5010#16, 0xA100#16].map decode =
      List.replicate 5 (.error .zeroField) ∧
    decode 0xBD00#16 = .error .unlistedRegister ∧ decode 0xBE55#16 = .error .unlistedRegister ∧
    decodeWith false 0x8000#16 = .error .leftShiftAbsent ∧ decodeWith false 0x9000#16 = .error .leftShiftAbsent := by
  decide

theorem test_decodeTableWord :
    decodeTableWord 16 0x2251 = some (.set 2#4 5#4 true) ∧ decodeTableWord 16 0xBD00 = none := by decide

/-! WellFormed: the one check, and a command it refuses for each of its two rows. -/

theorem test_wellFormed_refuses_shldrop : Instr.wellFormed false .shldrop = false := by decide
theorem test_wellFormed_refuses_shlloop : Instr.wellFormed false .shlloop = false := by decide
theorem test_wellFormed_accepts : Instr.wellFormed true .shldrop = true ∧ Instr.wellFormed false .shrloop = true := by decide

/-! Commands: 95_test_vectors.md L2.1, L2.2, L2.3. -/

theorem test_nop : leaves (withRows diagonal) 0x0000 0x0000#16 0x0102040810204080#64 = true := by decide
theorem test_clear : leaves (withRows diagonal) 0x1000 0x1000#16 0#64 = true := by decide
theorem test_set : leaves State.reset 0x2771 0x2000#16 0x0100000000000000#64 = true := by decide
theorem test_set_out_of_bounds : leaves (withRows diagonal) 0x20F1 0x2900#16 0x0102040810204080#64 = true := by decide
theorem test_toggle : leaves State.reset 0x3340 0x3000#16 0x0000000008000000#64 = true := by decide
theorem test_toggle_out_of_bounds : leaves State.reset 0x3880 0x3900#16 0#64 = true := by decide
theorem test_get_lit : leaves (withRows diagonal) 0x4330 0x4001#16 0x0102040810204080#64 = true := by decide
theorem test_get_unlit : leaves (withRows diagonal) 0x4340 0x4000#16 0x0102040810204080#64 = true := by decide
theorem test_rowbits : leaves (withRows shiftRowsBefore) 0x5400 0x50A0#16 0x3C55FFA081800100#64 = true := by decide
theorem test_rowbits_out_of_bounds : leaves State.reset 0x5900 0x5900#16 0#64 = true := by decide
theorem test_shrdrop : leaves (withRows shiftRowsBefore) 0x6000 0x6000#16 0x1E2A7F5040400000#64 = true := by decide
theorem test_shrloop : leaves (withRows shiftRowsBefore) 0x7000 0x7000#16 0x1EAAFF50C0408000#64 = true := by decide
theorem test_shldrop : leaves (withRows shiftRowsBefore) 0x8000 0x8000#16 0x78AAFE4002000200#64 = true := by decide
theorem test_shlloop : leaves (withRows shiftRowsBefore) 0x9000 0x9000#16 0x78AAFF4103010200#64 = true := by decide
theorem test_reserved : leaves State.reset 0xF123 0xFA00#16 0#64 = true := by decide
theorem test_illegal_wins : leaves State.reset 0x28F3 0x2A00#16 0#64 = true := by decide

/-- 95_test_vectors.md L2.1, the note on sticky: after an error NOP leaves 0x0800. -/
theorem test_sticky_stays :
    leaves { State.reset with rsp := { op := 2#4, sticky := true, status := .outOfBounds, data := 0#8 } } 0x0000
      0x0800#16 0#64 = true := by decide

/-- FLUSH at its acceptance offers `[0x01, 0x80]` and closes the port, and `rsp` is as it was. -/
theorem test_flush_offers :
    nextHas (step ((withRows diagonal).withFetchWord 16 0xA000)) (fun t =>
      t.rspWord = 0x0000#16 && t.busData = some 0x0180#16 && !t.cmdReady && !t.rspValid) = true := by decide

/-- L2.3: `err` on the third pair gives 0xAB02. -/
theorem test_flush_third_error :
    nextHas (stepWith untimed (answered .err (flushAt 2))) (fun t =>
      t.rspWord = 0xAB02#16 && t.busData = none && t.cmdReady && t.fb = diagonal) = true := by decide

/-- L2.3: the last `ok` of a FLUSH gives 0xA008. -/
theorem test_flush_last_ok :
    nextHas (stepWith untimed (answered .ok (flushAt 7))) (fun t => t.rspWord = 0xA008#16 && t.cmdReady) = true := by
  decide

/-- 42_row_serializer.md R127: the timeout, at the turn whose wait count is the limit, and not one before. -/
theorem test_flush_timeout :
    nextHas (stepWith timed { flushAt 0 with waited := 3 }) (fun t => t.rspWord = 0xAB00#16) = true ∧
      nextHas (stepWith timed { flushAt 0 with waited := 2 }) (fun t => t.waited = 3 && t.busData = some 0x0180#16) = true := by
  decide

/-- L2.3: EMIT answered `ok`, and answered `err`. -/
theorem test_emit_answers :
    nextHas (stepWith untimed (answered .ok emitting)) (fun t => t.rspWord = 0xB001#16) = true ∧
      nextHas (stepWith untimed (answered .err emitting)) (fun t => t.rspWord = 0xBB00#16) = true := by decide

/-- L2.3: `EMIT INTENSITY, 0xFF` offers its value unclamped. -/
theorem test_emit_unclamped :
    nextHas (step (State.reset.withFetchWord 16 0xBAFF)) (fun t => t.busData = some 0x0AFF#16) = true := by decide

/-- L2.2: without left shifts 0x8000 gives 0x8A00. -/
theorem test_shldrop_absent :
    nextHas (stepWith rightOnly (offered 0x8000#16)) (fun t => t.rspWord = 0x8A00#16) = true := by decide

/-- L2.5: a reset in a FLUSH. -/
theorem test_reset_in_flush :
    nextHas (stepWith untimed { flushAt 3 with inp := { Inputs.quiet with rst := true } }) (fun t =>
      t.rspWord = 0#16 && t.fbQ = 0#64 && t.cmdReady && !t.busValid && !t.rspValid) = true := by decide

/-! The host agent: 60_exceptions.md R164 to R169, 70_reset_and_hazards.md R179. -/

theorem test_host_tick_issues_shrloop :
    nextHas (stepWith untimed tickDue) (fun t => t.cmd = some 0x7000#16 && t.host.job = .tickShift) = true := by decide

theorem test_host_setup_second_word :
    nextHas (stepWith untimed { hostAt .stopped .pending (.setup 0) [] with rspValid := true }) (fun t =>
      t.cmd = some 0xB900#16) = true := by decide

theorem test_host_pixel_request :
    nextHas (stepWith untimed (hostAt .running .done (.waiting 20) [.togglePixel 3#4 4#4])) (fun t =>
      t.cmd = some 0x3340#16 && t.host.job = .serving (some 20)) = true := by decide

/-! The assembler: 30_encoding.md R73, R74, R75. -/

theorem test_assemble_set : assembleLine "SET     2, 5, 1  ; a comment".toList = .ok [.set 2#4 5#4 true] := by decide
theorem test_assemble_emit : assembleLine "EMIT SCANLIMIT, 0x07".toList = .ok [.emit .scanLimit 7#8] := by decide
theorem test_assemble_tick : assembleLine "TICK".toList = .ok [.shrloop, .flush] := by decide
theorem test_assemble_refuses :
    assembleLine "EMIT 13, 0".toList = .error .unlistedRegister ∧
      assembleLine "SET 16, 0, 1".toList = .error .outOfRange := by decide

/-! Witnesses: for every obligation with hypotheses, a state and operands that meet them. -/

theorem witness_RstResetsTheBlock :
    ({ flushAt 3 with inp := { Inputs.quiet with rst := true } } : State).inp.rst = true := by decide

theorem witness_RstAbandonsTheBusCommand :
    let s : State := { flushAt 3 with inp := { Inputs.quiet with rst := true } }
    s.inp.rst = true ∧ s.phase ≠ .idle ∧ s.offer = some { reg := 0x04#8, value := 0x10#8 } := by decide

/-- An idle block that is offered any word accepts it: the first premise of every statement about accepted words. -/
theorem witness_accepts (w : Word) : Accepts (offered w) w := ⟨rfl, rfl, rfl⟩

theorem witness_StepRunsTheDecodedCommand :
    Accepts (offered 0x2251#16) 0x2251#16 ∧ decodeWith timed.leftShiftPresent 0x2251#16 = .ok (.set 2#4 5#4 true) ∧
      decode 0x2251#16 = .ok (.set 2#4 5#4 true) := ⟨witness_accepts _, by decide, by decide⟩

/-- The four causes of `IllegalCommand`, at the ends of their ranges, and words next to them that have none. -/
theorem witness_WordsThatAreNoCommand :
    (NoCommand true 0xC000#16 ∧ NoCommand true 0xFFFF#16 ∧ NoCommand false 0x8000#16 ∧ NoCommand false 0x9000#16 ∧
      NoCommand true 0x2002#16 ∧ NoCommand true 0x0800#16 ∧ NoCommand true 0xBD00#16 ∧ NoCommand true 0xBE55#16) ∧
    ¬ NoCommand true 0x8000#16 ∧ ¬ NoCommand true 0x2001#16 ∧ ¬ NoCommand true 0xBC00#16 ∧ ¬ NoCommand true 0xBFFF#16 :=
  ⟨⟨.inl (by decide), .inl (by decide), .inr (.inl (by decide)), .inr (.inl (by decide)),
    .inr (.inr (.inl (by decide))), .inr (.inr (.inl (by decide))), .inr (.inr (.inr (by decide))),
    .inr (.inr (.inr (by decide)))⟩,
    fun h => h.elim (by decide) fun h => h.elim (by decide) fun h => h.elim (by decide) (by decide),
    fun h => h.elim (by decide) fun h => h.elim (by decide) fun h => h.elim (by decide) (by decide),
    fun h => h.elim (by decide) fun h => h.elim (by decide) fun h => h.elim (by decide) (by decide),
    fun h => h.elim (by decide) fun h => h.elim (by decide) fun h => h.elim (by decide) (by decide)⟩

theorem witness_OpcodeMapSelects :
    (Instr.emit .noop 0#8).wellFormed false = true ∧ Instr.shldrop.wellFormed true = true := by decide

/-- `RefusesBits` of every opcode with `zero` bits: a word it speaks of, the lowest or the highest of those bits set. -/
theorem witness_RefusesBits :
    ([(0x0#4, 0x0FFF#16, 0x0001#16), (0x1#4, 0x0FFF#16, 0x1800#16), (0x2#4, 0x000E#16, 0x2002#16),
      (0x2#4, 0x000E#16, 0x2008#16), (0x3#4, 0x000F#16, 0x3001#16), (0x4#4, 0x000F#16, 0x4008#16),
      (0x5#4, 0x00FF#16, 0x5080#16), (0x6#4, 0x0FFF#16, 0x6001#16), (0x7#4, 0x0FFF#16, 0x7800#16),
      (0x8#4, 0x0FFF#16, 0x8001#16), (0x9#4, 0x0FFF#16, 0x9800#16), (0xA#4, 0x0FFF#16, 0xA100#16)] :
        List (Nibble × Word × Word)).all (fun e => opField e.2.2 = e.1 && e.2.2 &&& e.2.1 != 0#16) = true := by decide

/-- `RefusedWithoutLeftShift` of both left shifts. -/
theorem witness_RefusedWithoutLeftShift :
    rightOnly.leftShiftPresent = false ∧ Accepts (offered 0x8000#16) 0x8000#16 ∧ opField 0x8000#16 = 0x8#4 ∧
      Accepts (offered 0x9000#16) 0x9000#16 ∧ opField 0x9000#16 = 0x9#4 :=
  ⟨rfl, witness_accepts _, by decide, witness_accepts _, by decide⟩

/-- The second halves of SET, TOGGLE, GET and ROWBITS: the first and the last index out of range, and 7 is not. -/
theorem witness_OutOfRange : OutOfRange 8#4 ∧ OutOfRange 15#4 ∧ ¬ OutOfRange 7#4 ∧ ¬ OutOfRange (indexNibble 7) := by
  unfold OutOfRange; decide

theorem witness_ReservedOpcodesRaise :
    Accepts (offered 0xC000#16) 0xC000#16 ∧ 0xC ≤ (opField 0xC000#16).toNat ∧ 0xC ≤ (opField 0xFFFF#16).toNat ∧
      ¬ 0xC ≤ (opField 0xBFFF#16).toNat := ⟨witness_accepts _, by decide, by decide, by decide⟩

/-- Waits of 0 and of the limit are within a timeout of 3, and any wait is within none. -/
theorem witness_WithinTimeout :
    WithinTimeout timed 0 ∧ WithinTimeout timed 3 ∧ ¬ WithinTimeout timed 4 ∧ WithinTimeout untimed 1000 := by
  refine ⟨?_, ?_, ?_, ?_⟩
  · intro l h; exact Nat.zero_le l
  · intro l h; cases h; exact Nat.le_refl 3
  · intro h; exact absurd (h 3 rfl) (by decide)
  · intro l h; cases h

theorem witness_FlushDeliversEightPairs : ∀ k : Fin 8, WithinTimeout timed ((fun _ => 3 : Fin 8 → Nat) k) :=
  fun _ => witness_WithinTimeout.2.1

theorem witness_FlushStopsAtTheFirstError : ∀ k : Fin 8, WithinTimeout timed ((fun _ => 0 : Fin 8 → Nat) k) :=
  fun _ => witness_WithinTimeout.1

theorem witness_FlushTimesOut : timed.busTimeout = some 3 ∧ ∀ k : Fin 8, (fun _ => 3 : Fin 8 → Nat) k ≤ 3 := by decide

theorem witness_EmitOffersItsPair :
    Accepts (offered 0xBD00#16) 0xBD00#16 ∧ opField 0xBD00#16 = 0xB#4 ∧ rowField 0xBD00#16 = 0xD#4 ∧
      rowField 0xBE55#16 = 0xE#4 ∧ timed.busTimeout = some 3 :=
  ⟨witness_accepts _, by decide, by decide, by decide, rfl⟩

theorem witness_BlockInv : BlockInv timed { flushAt 2 with waited := 3 } := by
  refine ⟨⟨rfl, rfl⟩, ?_, ?_, ?_⟩
  · intro l h; cases h; exact Nat.le_refl 3
  · intro h; exact absurd rfl h
  · intro h; cases h

theorem witness_UnansweredPairStallsOrTimesOut :
    ((flushAt 2).phase ≠ .idle ∧ untimed.busTimeout = none) ∧ timed.busTimeout = some 3 ∧
      BlockInv timed { flushAt 2 with waited := 3 } := ⟨by decide, rfl, witness_BlockInv⟩

/-- A command that completes with an error. -/
theorem witness_RaiseEndsTheCommand :
    nextHas (exec (.set 8#4 0#4 true) State.reset) (fun t => t.rspValid && t.rsp.status ≠ .ok) = true := by decide

/-- The last two parts: `bus_err` without `bus_ack`, short of the timeout, and with the wait count at its last value before it. -/
theorem witness_UnansweredPair_busErr :
    let s : State := { flushAt 2 with waited := 2, inp := { Inputs.quiet with busErr := true } }
    s.phase ≠ .idle ∧ s.inp.rst = false ∧ s.inp.busAck = false ∧ timed.busTimeout ≠ some s.waited := by decide

/-- 42_row_serializer.md R127: `bus_err` alone ends no offer. -/
theorem test_busErr_without_ack :
    nextHas (stepWith untimed { emitting with inp := { Inputs.quiet with busErr := true } }) (fun t =>
      t.busData = some 0x0B07#16 && t.waited = 1 && !t.rspValid) = true := by decide

theorem witness_BusyBlockAcceptsNothing : (flushAt 0).inp.rst = false ∧ (flushAt 0).phase ≠ .idle := by decide

theorem witness_OnlyWritersChangeTheBuffer :
    (offered 0x2251#16).inp.rst = false ∧
      nextHas (stepWith timed (offered 0x2251#16)) (fun t => t.fb ≠ (offered 0x2251#16).fb) = true := by decide

/-- A step that sets sticky, and one with a reset. -/
theorem witness_StickyIsSetByErrorsOnly :
    nextHas (stepWith timed (offered 0x2801#16)) (fun t => t.rsp.sticky) = true ∧
      nextHas (stepWith timed { offered 0#16 with inp := { Inputs.quiet with rst := true } }) (fun t => !t.rsp.sticky) =
        true := by decide

/-- A word answered at once, and one that leaves the block busy. -/
theorem witness_AcceptedWordIsAnswered :
    Accepts (offered 0xFFFF#16) 0xFFFF#16 ∧ Accepts (offered 0xA000#16) 0xA000#16 ∧
      decodeWith timed.leftShiftPresent 0xA000#16 = .ok .flush := ⟨witness_accepts _, witness_accepts _, by decide⟩

theorem witness_SetIdempotentAndClearReadsZero :
    ∀ i ∈ [Instr.get 0#4 0#4, .rowbits 15#4, .get 8#4 7#4], i.onlyReads = true := by decide

theorem witness_BlockInvariantKept :
    BlockInv timed State.reset ∧ nextHas (stepWith timed State.reset) (fun _ => true) = true := by
  refine ⟨⟨⟨rfl, rfl⟩, fun l _ => Nat.zero_le l, fun h => absurd rfl h, fun h => by cases h⟩, by decide⟩

/-- A tick whose SHRLOOP is on the port, and one whose FLUSH has just been answered. -/
def shiftIssued : State := { hostAt .running .done .tickShift [] with cmd := some 0x7000#16 }
def flushAnswered : State :=
  { hostAt .running .done .tickFlush [.stop] with
    rsp := { op := 0xA#4, sticky := false, status := .ok, data := 8#8 }
    rspValid := true }

/-- A tick whose FLUSH is still in progress. -/
def flushOut : State := { flushAt 2 with host := (hostAt .running .done .tickFlush [.stop]).host }

theorem witness_HostInv_shift : HostInv timed shiftIssued :=
  ⟨⟨rfl, .inl ⟨rfl, rfl⟩⟩, fun _ => rfl, by decide, .inl rfl⟩

theorem witness_HostInv_flush : HostInv timed flushAnswered ∧ HostInv timed flushOut :=
  ⟨⟨⟨rfl, .inr ⟨rfl, .inr ⟨rfl, rfl, rfl⟩⟩⟩, fun _ => rfl, by decide, .inl rfl⟩,
    ⟨⟨rfl, .inr ⟨rfl, .inl rfl⟩⟩, fun _ => rfl, by decide, .inl rfl⟩⟩

theorem witness_HostInvariantKept :
    HostInv timed shiftIssued ∧ nextHas (stepWith timed shiftIssued) (fun _ => true) = true :=
  ⟨witness_HostInv_shift, by decide⟩

theorem witness_TickShiftsFlushesPublishes :
    HostTurn tickDue ∧ tickDue.host.job = .waiting 20 ∧ tickDue.host.mode = .running ∧ pendingRequests tickDue = [] ∧
      tickDue.inp.elapsed = true ∧ ∀ k : Fin 8, WithinTimeout timed ((fun _ => 3 : Fin 8 → Nat) k) :=
  ⟨⟨rfl, rfl, rfl⟩, rfl, rfl, rfl, rfl, witness_FlushDeliversEightPairs⟩

/-- The second part: the wait not yet over. -/
theorem witness_TickShiftsFlushesPublishes_waiting :
    let s := hostAt .running .done (.waiting 20) []
    HostTurn s ∧ s.host.job = .waiting 20 ∧ pendingRequests s = [] ∧ s.inp.elapsed = false :=
  ⟨⟨rfl, rfl, rfl⟩, rfl, rfl, rfl⟩

theorem witness_TickBusErrorStopsTheLoop :
    HostTurn tickDue ∧ tickDue.host.job = .waiting 20 ∧ tickDue.host.mode = .running ∧ pendingRequests tickDue = [] ∧
      tickDue.inp.elapsed = true ∧ ∀ k : Fin 8, WithinTimeout timed ((fun _ => 3 : Fin 8 → Nat) k) :=
  witness_TickShiftsFlushesPublishes

/-- The two failures under the same timeout: an `err` at the last step allowed, and the timeout one step later. -/
theorem witness_TickBusErrorStopsTheLoop_failure :
    timed.busTimeout = some 3 ∧ errAfter 3 = [.notYet, .notYet, .notYet, .err] ∧
      List.replicate (3 + 1) SinkReply.notYet = [.notYet, .notYet, .notYet, .notYet] := by decide

theorem witness_SetupSendsFivePairs :
    let s := hostAt .stopped .pending .free [.beginSetup]
    HostTurn s ∧ s.host.job = .free ∧ s.host.setup = .pending ∧ pendingRequests s = .beginSetup :: [] ∧
      ∀ k : Fin 5, WithinTimeout timed ((fun _ => 3 : Fin 5 → Nat) k) :=
  ⟨⟨rfl, rfl, rfl⟩, rfl, rfl, rfl, fun _ => witness_WithinTimeout.2.1⟩

theorem witness_SetupErrorStopsTheSetup :
    let s : State :=
      { hostAt .stopped .pending (.setup 4) [] with
        rsp := { op := 0xB#4, sticky := true, status := .busError, data := 0#8 }, rspValid := true }
    HostTurn s ∧ s.host.job = .setup 4 ∧ s.rspValid = true ∧ s.rsp.status ≠ .ok :=
  ⟨⟨rfl, rfl, rfl⟩, rfl, rfl, by decide⟩

theorem witness_FailedSetupNeverAnimates :
    let s := hostAt .stopped .failed .free [.start]
    HostInv timed s ∧ s.host.setup = .failed ∧ s.inp.rst = false ∧ nextHas (stepWith timed s) (fun _ => true) = true :=
  ⟨⟨⟨rfl, rfl⟩, fun h => (by cases h), by decide, .inl rfl⟩, rfl, rfl, by decide⟩

/-- The four parts: a stop in the wait; a stop between ticks; the SHRLOOP outstanding; the FLUSH outstanding and not ended by the step. -/
theorem witness_StopNeverSplitsATick :
    (let s := hostAt .running .done (.waiting 20) [.stop];
      HostTurn s ∧ s.host.job = .waiting 20 ∧ pendingRequests s = .stop :: []) ∧
    (let s := hostAt .running .done .free [.stop];
      HostTurn s ∧ s.host.job = .free ∧ s.host.mode = .running ∧ pendingRequests s = .stop :: []) ∧
    (HostInv timed shiftIssued ∧ shiftIssued.inp.rst = false ∧ shiftIssued.host.job = .tickShift) ∧
    (HostInv timed flushOut ∧ flushOut.inp.rst = false ∧ flushOut.host.job = .tickFlush ∧
      nextHas (stepWith timed flushOut) (fun t => t.host.job ≠ .free) = true) :=
  ⟨⟨⟨rfl, rfl, rfl⟩, rfl, rfl⟩, ⟨⟨rfl, rfl, rfl⟩, rfl, rfl, rfl⟩, ⟨witness_HostInv_shift, rfl, rfl⟩, ⟨witness_HostInv_flush.2, rfl, rfl, by decide⟩⟩

theorem witness_StartAndStopAreIdempotent :
    (let s := hostAt .running .done (.waiting 20) [.start];
      HostTurn s ∧ s.host.job = .waiting 20 ∧ s.host.mode = .running ∧ pendingRequests s = .start :: []) ∧
    (let s := hostAt .running .done .free [.start];
      HostTurn s ∧ s.host.job = .free ∧ s.host.mode = .running ∧ pendingRequests s = .start :: []) ∧
    (let s := hostAt .stopped .done .free [.stop];
      HostTurn s ∧ s.host.job = .free ∧ s.host.mode = .stopped ∧ pendingRequests s = .stop :: []) :=
  ⟨⟨⟨rfl, rfl, rfl⟩, rfl, rfl, rfl⟩, ⟨⟨rfl, rfl, rfl⟩, rfl, rfl, rfl⟩, ⟨⟨rfl, rfl, rfl⟩, rfl, rfl, rfl⟩⟩

/-- A start with the setup done, and one with the setup pending. -/
theorem witness_StartNeedsTheSetup :
    (let s := hostAt .stopped .done .free [.start];
      HostTurn s ∧ s.host.job = .free ∧ s.host.mode = .stopped ∧ pendingRequests s = .start :: []) ∧
    (let s := hostAt .stopped .pending .free [.start];
      HostTurn s ∧ s.host.job = .free ∧ s.host.mode = .stopped ∧ pendingRequests s = .start :: []) :=
  ⟨⟨⟨rfl, rfl, rfl⟩, rfl, rfl, rfl⟩, ⟨⟨rfl, rfl, rfl⟩, rfl, rfl, rfl⟩⟩

/-- The least and the greatest legal period, and a new tick. -/
theorem witness_SpeedChangeTakesTheNextTick :
    (let s := hostAt .running .done (.waiting 20) [.setSpeed 1000];
      HostTurn s ∧ s.host.job = .waiting 20 ∧ 1 ≤ 1000 ∧ 1000 ≤ timed.periodMax ∧
        pendingRequests s = .setSpeed 1000 :: []) ∧
    (let s := hostAt .stopped .pending .free [.setSpeed 1];
      HostTurn s ∧ s.host.job = .free ∧ 1 ≤ 1 ∧ 1 ≤ timed.periodMax ∧ pendingRequests s = .setSpeed 1 :: []) ∧
    (let s := hostAt .running .done .free [];
      HostTurn s ∧ s.host.job = .free ∧ s.host.mode = .running ∧ pendingRequests s = []) :=
  ⟨⟨⟨rfl, rfl, rfl⟩, rfl, by decide, by decide, rfl⟩, ⟨⟨rfl, rfl, rfl⟩, rfl, by decide, by decide, rfl⟩,
    ⟨⟨rfl, rfl, rfl⟩, rfl, rfl, rfl⟩⟩

theorem witness_PixelRequestIssuesToggle :
    (let s := hostAt .stopped .pending .free [.togglePixel 7#4 15#4];
      HostTurn s ∧ s.host.job = .free ∧ pendingRequests s = .togglePixel 7#4 15#4 :: []) ∧
    (let s := hostAt .running .done (.waiting 20) [.togglePixel 0#4 0#4];
      HostTurn s ∧ s.host.job = .waiting 20 ∧ pendingRequests s = .togglePixel 0#4 0#4 :: []) :=
  ⟨⟨⟨rfl, rfl, rfl⟩, rfl, rfl⟩, ⟨⟨rfl, rfl, rfl⟩, rfl, rfl⟩⟩

/-- A host whose served request has just been answered with a status. -/
def served (resume : Option Nat) (status : Status) : State :=
  { hostAt .running .done (.serving resume) [.stop] with
    rsp := { op := 0x3#4, sticky := true, status := status, data := 0#8 }
    rspValid := true }

/-- The third part: each kind of status, in a wait and between ticks. -/
theorem witness_PixelRequestIssuesToggle_served :
    (∀ resume status, HostTurn (served resume status) ∧ (served resume status).host.job = .serving resume ∧
      (served resume status).rspValid = true) ∧
    (served none .ok).rsp.status = .ok ∧ (served (some 20) .outOfBounds).rsp.status ≠ .ok ∧
      (served (some 20) .outOfBounds).rsp.status ≠ .busError ∧ (served none .busError).rsp.status = .busError :=
  ⟨fun _ _ => ⟨⟨rfl, rfl, rfl⟩, rfl, rfl⟩, by decide⟩

/-- The return to the wait, with the error surfaced (60_exceptions.md R145, R169). -/
theorem test_host_served_error :
    nextHas (stepWith untimed (served (some 20) .outOfBounds)) (fun t =>
      t.host.job = .waiting 20 && t.host.errors = [.requestFailed .outOfBounds] && t.host.mode = .running) = true := by decide

/-- The three parts: a FLUSH accepted, a bus-wait step without an end and one with an end, a move of the host. -/
theorem witness_ResponseHeldUntilCompletion :
    Accepts (offered 0xA000#16) 0xA000#16 ∧
      nextHas (stepWith timed (offered 0xA000#16)) (fun t => !t.rspValid) = true ∧
      ((flushAt 2).inp.rst = false ∧ (flushAt 2).phase ≠ .idle) ∧
      nextHas (stepWith timed (flushAt 2)) (fun t => !t.rspValid) = true ∧
      nextHas (stepWith timed (answered .ok (flushAt 7))) (fun t => t.rspValid) = true ∧ HostTurn tickDue :=
  ⟨witness_accepts _, by decide, by decide, by decide, by decide, rfl, rfl, rfl⟩

end Sys2Proof.Tests
end

section
/-! SUPPORT. What one step can do to the block, as one inductive relation: every step of every state is one of its ten
cases, with what selects the case. The statements about all steps are case analyses of it. -/

namespace Sys2Proof.Machine

/-- The ten things a step can do, each with its next state. -/
inductive StepOutcome (p : Params) (s : State) : State → Prop where
  /-- The reset line is high (70_reset_and_hazards.md R176). -/
  | reset (high : s.inp.rst = true) : StepOutcome p s (resetBlock (Config.freeReceived s.draws) s.sample)
  /-- The offered pair is not answered yet (42_row_serializer.md R127). -/
  | wait (low : s.inp.rst = false) (busy : s.phase ≠ .idle) (untimed : p.busTimeout ≠ some s.waited) :
    StepOutcome p s (waitOn s.sample)
  /-- A FLUSH goes on to its next row (42_row_serializer.md R124). -/
  | nextRow (low : s.inp.rst = false) (k : Fin 8) (n : Fin 9) (flushing : s.phase = .flushing k n) (more : k ≠ 7) :
    StepOutcome p s
      (offerPair (rowPair s.fb (k + 1)) { endOffer .ok s.sample with phase := .flushing (k + 1) (n + 1) })
  /-- The last pair of the command in progress was answered `ok` (42_row_serializer.md R124, R126). -/
  | busDone (low : s.inp.rst = false) (op : Nibble) (progress : s.phase.opcode = some op) (data : Byte) :
    StepOutcome p s (complete data (openCommand op { endOffer .ok s.sample with phase := .idle }))
  /-- A pair of the command in progress failed (42_row_serializer.md R125, R127). -/
  | busFailed (low : s.inp.rst = false) (op : Nibble) (progress : s.phase.opcode = some op) (e : Ending)
    (count : Byte) : StepOutcome p s (raise .busError count (openCommand op (endOffer e s.sample)))
  /-- An accepted word completes at once; it changes the buffer only if its command writes it (10_state.md R21). -/
  | completed (w : Word) (acc : Accepts s w) (fb : FrameBuffer)
    (writer : fb ≠ s.fb → ∃ i, decodeWith p.leftShiftPresent w = .ok i ∧ i.writesBuffer = true) (data : Byte) :
    StepOutcome p s (complete data { openCommand (opField w) s.sample.takeCommand with fb := fb })
  /-- An accepted word raises at once (40_pixel_buffer.md R80). -/
  | raised (w : Word) (acc : Accepts s w) (e : Err) :
    StepOutcome p s (raise e 0#8 (openCommand (opField w) s.sample.takeCommand))
  /-- A FLUSH is accepted (42_row_serializer.md R124). -/
  | startFlush (w : Word) (acc : Accepts s w) :
    StepOutcome p s (startBus (.flushing 0 0) (rowPair s.fb 0) s.sample.takeCommand)
  /-- An EMIT is accepted (42_row_serializer.md R126). -/
  | startEmit (w : Word) (acc : Accepts s w) (reg : DevReg) (value : Byte) :
    StepOutcome p s (startBus .emitting (commandPair reg value) s.sample.takeCommand)
  /-- A move of the host agent (log entry 15). -/
  | hostMoved (turn : HostTurn s) (cmd : Option Word) (host : HostAgent) (shown : List (BitVec 64)) :
    StepOutcome p s { s.sample with cmd := cmd, host := host, shown := shown }

/-- A command that does not write the buffer leaves it (10_state.md R21). -/
theorem exec_fb_of_not_writesBuffer {i : Instr} {s t : State} (reads : i.writesBuffer = false)
    (h : exec i s = .next t) : t.fb = s.fb := by
  cases i with
  | nop | flush | emit | reserved => cases h; rfl
  | get row col =>
    cases hc : cellOperand row col with
    | some rc => rw [exec_get_some hc] at h; cases h; rfl
    | none => rw [exec_get_none hc] at h; cases h; rfl
  | rowbits row =>
    cases hr : inBounds row with
    | some r => rw [exec_rowbits_some hr] at h; cases h; rfl
    | none => rw [exec_rowbits_none hr] at h; cases h; rfl
  | clear | set | toggle | shrdrop | shrloop | shldrop | shlloop => cases reads

variable (p : Params) {s : State}

/-- A bus-wait step of a FLUSH. -/
theorem flushTurn_outcome (low : s.inp.rst = false) {k : Fin 8} {n : Fin 9} (hp : s.phase = .flushing k n) :
    StepOutcome p s (flushTurn p.busTimeout s.inp.busAck s.inp.busErr k n s.sample) := by
  have progress : s.phase.opcode = some 0xA#4 := by rw [hp]; rfl
  obtain ⟨turn, h⟩ | ⟨-, h⟩ | ⟨e, -, -, h⟩ :=
    flushTurn_cases p.busTimeout s.inp.busAck s.inp.busErr k n s.sample
  · rw [h]
    exact .wait low (by simp [hp]) (busTurn_eq_none.mp turn).2
  · rw [h]
    by_cases last : k = 7
    · subst last
      exact .busDone low _ progress _
    · rw [flushAdvance_more last]
      exact .nextRow low k n hp last
  · rw [h]
    exact .busFailed low _ progress e _

/-- A bus-wait step of an EMIT. -/
theorem emitTurn_outcome (low : s.inp.rst = false) (hp : s.phase = .emitting) :
    StepOutcome p s (emitTurn p.busTimeout s.inp.busAck s.inp.busErr s.sample) := by
  have progress : s.phase.opcode = some 0xB#4 := by rw [hp]; rfl
  obtain ⟨turn, h⟩ | ⟨-, h⟩ | ⟨e, -, -, h⟩ :=
    emitTurn_cases p.busTimeout s.inp.busAck s.inp.busErr s.sample
  · rw [h]
    exact .wait low (by simp [hp]) (busTurn_eq_none.mp turn).2
  · rw [h]
    exact .busDone low _ progress _
  · rw [h]
    exact .busFailed low _ progress e _

/-- The step that accepts a word. -/
theorem acceptWord_outcome {w : Word} (acc : Accepts s w) :
    ∃ t, acceptWord p w s.sample = .next t ∧ StepOutcome p s t := by
  obtain ⟨i, hi, h⟩ | ⟨-, -, h⟩ := acceptWord_cases p w s.sample
  · rw [h]
    obtain ⟨fb, data, he⟩ | ⟨e, he⟩ | ⟨-, he⟩ | ⟨reg, value, -, he⟩ := exec_cases i s.sample.takeCommand
    · have writer : fb ≠ s.fb → ∃ i, decodeWith p.leftShiftPresent w = .ok i ∧ i.writesBuffer = true := by
        intro changed
        by_contra none_writes
        have reads : i.writesBuffer = false := by simpa [hi] using none_writes
        exact changed (exec_fb_of_not_writesBuffer reads he)
      rw [decode_opcode hi] at he
      exact ⟨_, he, .completed w acc fb writer data⟩
    · rw [decode_opcode hi] at he
      exact ⟨_, he, .raised w acc e⟩
    · exact ⟨_, he, .startFlush w acc⟩
    · exact ⟨_, he, .startEmit w acc reg value⟩
  · exact ⟨_, h, .raised w acc .illegalCommand⟩

/-- Every step answers a next state, and it is one of the ten. -/
theorem stepWith_outcome (s : State) : ∃ t, stepWith p s = .next t ∧ StepOutcome p s t := by
  obtain ⟨high, h⟩ | ⟨low, k, n, hp, h⟩ | ⟨low, hp, h⟩ | ⟨low, hp, w, hc, h⟩ | ⟨low, hp, hc, h⟩ := stepWith_cases p s
  · exact ⟨_, h, .reset high⟩
  · exact ⟨_, h, flushTurn_outcome p low hp⟩
  · exact ⟨_, h, emitTurn_outcome p low hp⟩
  · rw [h]
    exact acceptWord_outcome p ⟨low, hp, hc⟩
  · obtain ⟨cmd, host, shown, moved⟩ := hostMove_block p s.inp.elapsed s.rspValid s.sample
    rw [moved] at h
    exact ⟨_, h, .hostMoved ⟨low, hp, hc⟩ cmd host shown⟩

variable {p} {t : State}

theorem StepOutcome.of_stepWith (h : stepWith p s = .next t) : StepOutcome p s t := by
  obtain ⟨u, hu, outcome⟩ := stepWith_outcome p s
  obtain rfl : u = t := by simpa [hu] using h
  exact outcome

/-- A block with a command in progress is busy. -/
theorem Phase.ne_idle_of_opcode {phase : Phase} {op : Nibble} (h : phase.opcode = some op) : phase ≠ .idle := by
  rintro rfl
  cases h

/-- At most one word is accepted in a step: the one on the command port. -/
theorem Accepts.unique {w v : Word} (hw : Accepts s w) (hv : Accepts s v) : w = v := by
  obtain ⟨-, -, hw⟩ := hw
  obtain ⟨-, -, hv⟩ := hv
  exact Option.some.inj (hw.symm.trans hv)

/-- No word is accepted in a reset. -/
theorem Accepts.rst_low {w : Word} (h : Accepts s w) : s.inp.rst = false := h.1

/-- A word is accepted by an idle block only (10_state.md R31). -/
theorem Accepts.idle {w : Word} (h : Accepts s w) : s.phase = .idle := h.2.1

theorem HostTurn.rst_low (h : HostTurn s) : s.inp.rst = false := h.1

theorem HostTurn.idle (h : HostTurn s) : s.phase = .idle := h.2.1

end Sys2Proof.Machine
end

section
/-! SUPPORT. The invariant of the block: what it says in each phase, what establishes it, and that every step keeps it. -/

namespace Sys2Proof.Machine

variable {p : Params} {s t : State}

theorem portInv_idle_iff (h : s.phase = .idle) : PortInv s ↔ s.offer = none ∧ s.waited = 0 := by
  simp [PortInv, h]

theorem portInv_flushing_iff {k : Fin 8} {n : Fin 9} (h : s.phase = .flushing k n) :
    PortInv s ↔ n.val = k.val ∧ s.offer = some (rowPair s.fb k) := by
  simp [PortInv, h]

theorem portInv_emitting_iff (h : s.phase = .emitting) :
    PortInv s ↔ ∃ reg value, s.offer = some (commandPair reg value) := by
  simp [PortInv, h]

/-- An idle block with a free bus port, and with no error status without `sticky`, has the invariant. -/
theorem blockInv_of_idle (idle : s.phase = .idle) (offer : s.offer = none) (waited : s.waited = 0)
    (sticky : s.rsp.status ≠ .ok → s.rsp.sticky = true) : BlockInv p s :=
  ⟨(portInv_idle_iff idle).mpr ⟨offer, waited⟩, by simp [waited], sticky, fun _ => idle⟩

/-- A block that has just offered a pair in agreement with its phase has the invariant. -/
theorem blockInv_of_offered (port : PortInv s) (waited : s.waited = 0)
    (sticky : s.rsp.status ≠ .ok → s.rsp.sticky = true) (quiet : s.rspValid = false) : BlockInv p s :=
  ⟨port, by simp [waited], sticky, by simp [quiet]⟩

theorem blockInv_complete (data : Byte) (idle : s.phase = .idle) (offer : s.offer = none) (waited : s.waited = 0) :
    BlockInv p (complete data s) :=
  blockInv_of_idle idle offer waited (by simp)

theorem blockInv_raise (e : Err) (info : Byte) (s : State) : BlockInv p (raise e info s) :=
  blockInv_of_idle rfl rfl rfl (by simp)

/-- The count of a FLUSH keeps up with its row. -/
theorem flush_count_succ {k : Fin 8} {n : Fin 9} (more : k ≠ 7) (h : n.val = k.val) : (n + 1).val = (k + 1).val := by
  revert k n
  decide

/-- A bus-wait step without an end leaves phase and offered pair, so the port still agrees (42_row_serializer.md R127). -/
theorem portInv_waitOn (busy : s.phase ≠ .idle) (h : PortInv s) : PortInv (waitOn s.sample) := by
  cases hp : s.phase with
  | idle => exact absurd hp busy
  | flushing k n => exact (portInv_flushing_iff (s := waitOn s.sample) hp).mpr ((portInv_flushing_iff hp).mp h)
  | emitting => exact (portInv_emitting_iff (s := waitOn s.sample) hp).mpr ((portInv_emitting_iff hp).mp h)

theorem StepOutcome.keeps_blockInv (outcome : StepOutcome p s t) (inv : BlockInv p s) : BlockInv p t := by
  obtain ⟨port, limit, sticky, -⟩ := inv
  cases outcome with
  | reset => exact blockInv_of_idle rfl rfl rfl (by simp [State.reset])
  | wait _ busy untimed =>
    refine ⟨portInv_waitOn busy port, fun l hl => ?_, sticky, by simp⟩
    have reached : s.waited ≠ l := by rintro rfl; exact untimed hl
    have := limit l hl
    rw [waitOn_waited, sample_waited]
    omega
  | nextRow _ k n flushing more =>
    obtain ⟨count, -⟩ := (portInv_flushing_iff flushing).mp port
    exact blockInv_of_offered ((portInv_flushing_iff rfl).mpr ⟨flush_count_succ more count, rfl⟩) rfl sticky rfl
  | busDone => exact blockInv_complete _ rfl rfl rfl
  | busFailed => exact blockInv_raise _ _ _
  | completed w acc =>
    obtain ⟨offer, waited⟩ := (portInv_idle_iff acc.idle).mp port
    exact blockInv_complete _ acc.idle offer waited
  | raised => exact blockInv_raise _ _ _
  | startFlush => exact blockInv_of_offered ((portInv_flushing_iff rfl).mpr ⟨rfl, rfl⟩) rfl sticky rfl
  | startEmit w _ reg value =>
    exact blockInv_of_offered ((portInv_emitting_iff rfl).mpr ⟨reg, value, rfl⟩) rfl sticky rfl
  | hostMoved turn =>
    obtain ⟨offer, waited⟩ := (portInv_idle_iff turn.idle).mp port
    exact blockInv_of_idle turn.idle offer waited sticky

/-- Settles O44: each of the ten outcomes of a step keeps the invariant. -/
theorem blockInvariantKept : Obligations.BlockInvariantKept :=
  fun _ _ _ inv h => (StepOutcome.of_stepWith h).keeps_blockInv inv

/-- At reset the host's job is free and nothing is on the command port. -/
theorem hostInv_reset (p : Params) : HostInv p State.reset := by
  have job : JobInv State.reset := ⟨rfl, rfl⟩
  have stopped : State.reset.host.mode ≠ .running := by decide
  exact ⟨job, fun running => absurd running stopped, by decide, .inl rfl⟩

/-- Settles O43: at reset the block is idle with a free bus port, and the host is stopped and free. -/
theorem invariantsHoldAtReset : Obligations.InvariantsHoldAtReset :=
  fun p => ⟨blockInv_of_idle rfl rfl rfl (by simp [State.reset]), hostInv_reset p⟩

end Sys2Proof.Machine
end

section
/-! SUPPORT. What the steps without a reset keep of the buffer and of the response, from the outcomes of a step. -/

namespace Sys2Proof.Machine

variable {p : Params} {s t : State}

/-- Settles O32: of the ten outcomes only a completed word can bring a new buffer. -/
theorem onlyWritersChangeTheBuffer : Obligations.OnlyWritersChangeTheBuffer := by
  unfold Obligations.OnlyWritersChangeTheBuffer
  intro p s t low h changed
  cases StepOutcome.of_stepWith h with
  | reset high => simp [low] at high
  | completed w acc fb writer =>
    obtain ⟨i, decoded, writes⟩ := writer changed
    exact ⟨w, i, acc, decoded, writes⟩
  | wait | nextRow | busDone | busFailed | raised | startFlush | startEmit | hostMoved =>
    exact absurd rfl changed

/-- No error has the status OK (10_state.md R25). -/
@[simp] theorem Err.status_ne_ok (e : Err) : e.status ≠ .ok := by
  cases e <;> simp [Err.status]

/-- Settles O33: an outcome completes OK and keeps `sticky`, raises and sets it, or gives no response. -/
theorem stickyIsSetByErrorsOnly : Obligations.StickyIsSetByErrorsOnly := by
  unfold Obligations.StickyIsSetByErrorsOnly
  intro p s t h
  cases StepOutcome.of_stepWith h with
  | reset high => simp [high, State.reset]
  | wait low | nextRow low | busDone low | busFailed low => simp [low]
  | completed w acc | raised w acc | startFlush w acc | startEmit w acc => simp [acc.rst_low]
  | hostMoved turn => simp [turn.rst_low]

/-- A step without a reset that gives no response keeps `rsp` (10_state.md R24, D29). -/
theorem StepOutcome.rsp_held (outcome : StepOutcome p s t) (low : s.inp.rst = false) (quiet : t.rspValid = false) :
    t.rsp = s.rsp := by
  cases outcome with
  | reset high => simp [low] at high
  | busDone | busFailed | completed | raised => simp at quiet
  | wait | nextRow | startFlush | startEmit | hostMoved => rfl

/-- The response of a step that accepts a word echoes the word's opcode (40_pixel_buffer.md R80). -/
theorem StepOutcome.op_of_accepts {w : Word} (outcome : StepOutcome p s t) (acc : Accepts s w)
    (responded : t.rspValid = true) : t.rsp.op = opField w := by
  cases outcome with
  | completed v acc' | raised v acc' => rw [acc.unique acc']; rfl
  | busDone _ _ progress | busFailed _ _ progress => exact absurd acc.idle (Phase.ne_idle_of_opcode progress)
  | reset | wait | nextRow | startFlush | startEmit | hostMoved => simp at responded

/-- The response of a step of a busy block echoes the opcode of the command in progress (42_row_serializer.md R124). -/
theorem StepOutcome.op_of_busy (outcome : StepOutcome p s t) (busy : s.phase ≠ .idle) (responded : t.rspValid = true) :
    s.phase.opcode = some t.rsp.op := by
  cases outcome with
  | completed w acc | raised w acc => exact absurd acc.idle busy
  | busDone _ _ progress | busFailed _ _ progress => exact progress
  | reset | wait | nextRow | startFlush | startEmit | hostMoved => simp at responded

/-- Settles O57: `rsp` is held without a response, echoes an accepted or pending opcode with one, and no move of the host
touches the block. -/
theorem responseHeldUntilCompletion : Obligations.ResponseHeldUntilCompletion := by
  refine ⟨fun p s t w acc h => ?_, fun p s t low busy h => ?_, fun p s turn => ?_⟩
  · have outcome := StepOutcome.of_stepWith h
    exact ⟨outcome.op_of_accepts acc, outcome.rsp_held acc.rst_low⟩
  · have outcome := StepOutcome.of_stepWith h
    exact ⟨outcome.op_of_busy busy, outcome.rsp_held low⟩
  · obtain ⟨cmd, host, shown, moved⟩ := hostMove_block p s.inp.elapsed s.rspValid s.sample
    exact ⟨_, stepWith_hostTurn p turn, by simp [moved, SameSequencing]⟩

/-- A step of a busy block keeps the word on the command port and the buffer (10_state.md R31). -/
theorem StepOutcome.cmd_fb_of_busy (outcome : StepOutcome p s t) (low : s.inp.rst = false) (busy : s.phase ≠ .idle) :
    t.cmd = s.cmd ∧ t.fb = s.fb := by
  cases outcome with
  | reset high => simp [low] at high
  | wait | nextRow | busDone | busFailed => exact ⟨rfl, rfl⟩
  | completed w acc | raised w acc | startFlush w acc | startEmit w acc => exact absurd acc.idle busy
  | hostMoved turn => exact absurd turn.idle busy

/-- Settles O31: a busy block is not ready, and its step is a bus-wait step. -/
theorem busyBlockAcceptsNothing : Obligations.BusyBlockAcceptsNothing := by
  unfold Obligations.BusyBlockAcceptsNothing
  intro p s low busy
  obtain ⟨t, h, outcome⟩ := stepWith_outcome p s
  exact ⟨by simp [State.cmdReady, busy], t, h, outcome.cmd_fb_of_busy low busy⟩

end Sys2Proof.Machine
end

section
/-! SUPPORT. The response word: where the fields of `rsp` stand in it, and its value at reset. -/

namespace Sys2Proof.Machine

/-- A bit of the response word, by the field it belongs to (10_state.md R24). -/
theorem Rsp.word_getLsbD (r : Rsp) (i : Nat) :
    r.word.getLsbD i =
      if i < 8 then r.data.getLsbD i else if i < 11 then r.status.code.getLsbD (i - 8)
      else if i < 12 then (BitVec.ofBool r.sticky).getLsbD (i - 11) else r.op.getLsbD (i - 12) := by
  change BitVec.getLsbD (w := 4 + 1 + 3 + 8) (r.op ++ BitVec.ofBool r.sticky ++ r.status.code ++ r.data) i = _
  simp only [BitVec.getLsbD_append, Nat.sub_sub]
  grind

theorem Rsp.word_op (r : Rsp) : r.word.extractLsb' 12 4 = r.op := by
  apply BitVec.eq_of_getLsbD_eq
  intro i hi
  have not_code : ¬ 12 + i < 11 := by omega
  have not_data : ¬ 12 + i < 8 := by omega
  simp [Rsp.word_getLsbD, hi, not_code, not_data]

theorem Rsp.word_sticky (r : Rsp) : r.word.getLsbD 11 = r.sticky := by
  rw [Rsp.word_getLsbD]
  simp

theorem Rsp.word_code (r : Rsp) : r.word.extractLsb' 8 3 = r.status.code := by
  apply BitVec.eq_of_getLsbD_eq
  intro i hi
  have in_code : 8 + i < 11 := by omega
  simp [Rsp.word_getLsbD, hi, in_code]

theorem Rsp.word_data (r : Rsp) : r.word.extractLsb' 0 8 = r.data := by
  apply BitVec.eq_of_getLsbD_eq
  intro i hi
  simp [Rsp.word_getLsbD, hi]

/-- The four statuses have four codes (10_state.md R25). -/
theorem Status.code_inj {a b : Status} : a.code = b.code ↔ a = b := by
  cases a <;> cases b <;> decide

/-- Settles O56: the fields of the response word, and the code of the status each error writes. -/
theorem responseRegisterReads : Obligations.ResponseRegisterReads := by
  refine ⟨fun s => ?_, fun info s => ?_⟩
  · simp only [State.rspWord]
    rw [Rsp.word_code]
    exact ⟨Rsp.word_op _, Rsp.word_sticky _, Rsp.word_data _, Status.code_inj (b := .ok),
      Status.code_inj (b := .outOfBounds), Status.code_inj (b := .illegalCommand), Status.code_inj (b := .busError)⟩
  · simp only [State.rspWord, Rsp.word_code]
    exact ⟨rfl, rfl, rfl⟩

/-- Every cell of the buffer is unlit at reset (10_state.md R35). -/
theorem cell_reset (r c : Fin 8) : cell State.reset.fb r c = false := by
  change columnBit (rowBits clearBuffer r) c = false
  rw [rowBits_clearBuffer, columnBit_zero]

/-- Settles O1: the reset values, and a NOP on them answers with the same response word. -/
theorem resetValuesOfTheBlock : Obligations.ResetValuesOfTheBlock :=
  ⟨cell_reset, rfl, rfl, rfl, rfl, by decide, _, rfl, rfl⟩

end Sys2Proof.Machine
end

section
/-! SUPPORT. The snapshot port: the byte of each row and the bit of each cell. -/

namespace Sys2Proof.Machine

/-- A byte past the least significant one is read from the higher part. -/
theorem extractLsb'_append_byte {n : Nat} (x : BitVec n) (b : Byte) (k : Nat) :
    (x ++ b).extractLsb' (8 + k) 8 = x.extractLsb' k 8 := by
  rw [BitVec.extractLsb'_append_eq_of_le (Nat.le_add_right 8 k), Nat.add_sub_cancel_left]

/-- Row `r` stands in byte `r` of the snapshot (20_memory.md R43): below it stand the `r` bytes of the rows before it. -/
theorem fbQ_row (fb : FrameBuffer) (r : Fin 8) : (fbQ fb).extractLsb' (8 * r.val) 8 = rowBits fb r := by
  change BitVec.extractLsb' (n := 8 + 8 + 8 + 8 + 8 + 8 + 8 + 8) (8 * r.val) 8 (fbQ fb) = rowBits fb r
  have next_byte (k : Nat) : 8 * (k + 1) = 8 + 8 * k := by omega
  fin_cases r <;> simp only [fbQ, next_byte, extractLsb'_append_byte]
  iterate 7
    · exact BitVec.extractLsb'_append_eq_right
  · exact BitVec.extractLsb'_eq_self

/-- A cell's bit of the snapshot is the bit of its column in its row's byte (20_memory.md R41, R43). -/
theorem fbQ_cell (fb : FrameBuffer) (r c : Fin 8) : (fbQ fb).getLsbD (8 * r.val + 7 - c.val) = cell fb r c := by
  have in_row : 7 - c.val < 8 := by omega
  rw [cell, columnBit, ← fbQ_row, BitVec.getLsbD_extractLsb', decide_eq_true in_row, Bool.true_and,
    Nat.add_sub_assoc (Nat.le_of_lt_succ c.isLt)]

/-- Settles O12: the snapshot's bytes are the rows, and so its bits are the cells. -/
theorem snapshotShowsTheRows : Obligations.SnapshotShowsTheRows :=
  fun s r c => ⟨fbQ_row s.fb r, fbQ_cell s.fb r c⟩

end Sys2Proof.Machine
end

section
/-! SUPPORT. A command and a word agree field by field (30_encoding.md R61 to R68): what the encoder writes and what the
decoder reads are one and the same relation, so each inverts the other. -/

namespace Sys2Proof

/-- A field of a word is two bit strings in a row exactly when its high and its low part are those. -/
theorem extractLsb'_eq_append_iff {k m n : Nat} (w : BitVec k) (lo : Nat) (high : BitVec m) (low : BitVec n) :
    w.extractLsb' lo (m + n) = high ++ low ↔ w.extractLsb' (lo + n) m = high ∧ w.extractLsb' lo n = low := by
  rw [← BitVec.extractLsb'_append_extractLsb'_eq_extractLsb' (x := w) (start₁ := lo) (len₁ := n) (len₂ := m) rfl]
  constructor
  · intro same
    have high_same := congrArg (BitVec.extractLsb' n m) same
    have low_same := congrArg (BitVec.extractLsb' 0 n) same
    simp only [BitVec.extractLsb'_append_eq_left, BitVec.extractLsb'_append_eq_right] at high_same low_same
    exact ⟨high_same, low_same⟩
  · rintro ⟨rfl, rfl⟩
    rfl

/-- Two bit strings in a row are a word exactly when its high and its low part are those. -/
theorem append_eq_iff {m n : Nat} (high : BitVec m) (low : BitVec n) (w : BitVec (m + n)) :
    high ++ low = w ↔ w.extractLsb' n m = high ∧ w.extractLsb' 0 n = low := by
  have fields := extractLsb'_eq_append_iff w 0 high low
  rwa [BitVec.extractLsb'_eq_self, eq_comm, Nat.zero_add] at fields

section

variable {w : Word} {op row col : Nibble}

/-- The word of format Z (30_encoding.md R61). -/
theorem formatZ_eq_iff {low : BitVec 12} : op ++ low = w ↔ opField w = op ∧ w.extractLsb' 0 12 = low :=
  append_eq_iff op low w

/-- The word of format R, and of format E with a register for the row (30_encoding.md R61). -/
theorem formatRE_eq_iff {low : Byte} :
    op ++ row ++ low = w ↔ opField w = op ∧ rowField w = row ∧ valueField w = low :=
  (append_eq_iff (op ++ row) low w).trans <|
    (and_congr_left' (extractLsb'_eq_append_iff w 8 op row)).trans and_assoc

/-- The three upper nibbles of a word. -/
theorem upper_nibbles_eq_iff :
    w.extractLsb' 4 12 = op ++ row ++ col ↔ opField w = op ∧ rowField w = row ∧ colField w = col :=
  (extractLsb'_eq_append_iff w 4 (op ++ row) col).trans <|
    (and_congr_left' (extractLsb'_eq_append_iff w 8 op row)).trans and_assoc

/-- The word of format C without a `lit` bit (30_encoding.md R61). -/
theorem formatC_eq_iff {low : Nibble} :
    op ++ row ++ col ++ low = w ↔
      opField w = op ∧ rowField w = row ∧ colField w = col ∧ w.extractLsb' 0 4 = low :=
  (append_eq_iff (op ++ row ++ col) low w).trans <|
    (and_congr_left' upper_nibbles_eq_iff).trans (by simp only [and_assoc])

theorem bit_zero_eq_ofBool_iff {lit : Bool} : w.extractLsb' 0 1 = BitVec.ofBool lit ↔ litField w = lit := by
  have bit : w.extractLsb' 0 1 = BitVec.ofBool (litField w) := by
    apply BitVec.eq_of_getLsbD_eq
    intro i hi
    obtain rfl : i = 0 := by omega
    simp [litField]
  rw [bit, BitVec.ofBool_eq_iff_eq]

/-- The word of format C with a `lit` bit (30_encoding.md R61, R64). -/
theorem formatC_lit_eq_iff {zero : BitVec 3} {lit : Bool} :
    op ++ row ++ col ++ zero ++ BitVec.ofBool lit = w ↔
      opField w = op ∧ rowField w = row ∧ colField w = col ∧ w.extractLsb' 1 3 = zero ∧ litField w = lit := by
  have above_lit : w.extractLsb' 1 15 = op ++ row ++ col ++ zero ↔
      (opField w = op ∧ rowField w = row ∧ colField w = col) ∧ w.extractLsb' 1 3 = zero :=
    (extractLsb'_eq_append_iff w 1 (op ++ row ++ col) zero).trans (and_congr_left' upper_nibbles_eq_iff)
  exact (append_eq_iff (op ++ row ++ col ++ zero) (BitVec.ofBool lit) w).trans <|
    (and_congr above_lit bit_zero_eq_ofBool_iff).trans (by simp only [and_assoc])

/-- The word of a reserved command: the two bits above its operand and the operand's upper two are its opcode
(30_encoding.md R67). -/
theorem reserved_word_eq_iff {low : BitVec 14} :
    0b11#2 ++ low = w ↔ opField w = (Instr.reserved low).opcode ∧ w.extractLsb' 0 14 = low := by
  have opcode : opField w = (Instr.reserved low).opcode ↔
      w.extractLsb' 14 2 = 0b11#2 ∧ w.extractLsb' 12 2 = low.extractLsb' 12 2 :=
    extractLsb'_eq_append_iff w 12 0b11#2 (low.extractLsb' 12 2)
  refine (append_eq_iff 0b11#2 low w).trans ?_
  rw [opcode]
  constructor
  · rintro ⟨top, rfl⟩
    rw [BitVec.extractLsb'_extractLsb'_of_le (Nat.le_refl 14)]
    exact ⟨⟨top, rfl⟩, rfl⟩
  · rintro ⟨⟨top, -⟩, rest⟩
    exact ⟨top, rest⟩

end

/-- The operands of a command are the fields of the word in the command's format, and the `zero` field of the word is zero
(30_encoding.md R61 to R65, R68). -/
def Instr.ReadFrom (w : Word) : Instr → Prop
  | .nop => w.extractLsb' 0 12 = 0#12
  | .clear => w.extractLsb' 0 12 = 0#12
  | .set row col lit => rowField w = row ∧ colField w = col ∧ w.extractLsb' 1 3 = 0#3 ∧ litField w = lit
  | .toggle row col => rowField w = row ∧ colField w = col ∧ w.extractLsb' 0 4 = 0#4
  | .get row col => rowField w = row ∧ colField w = col ∧ w.extractLsb' 0 4 = 0#4
  | .rowbits row => rowField w = row ∧ w.extractLsb' 0 8 = 0#8
  | .shrdrop => w.extractLsb' 0 12 = 0#12
  | .shrloop => w.extractLsb' 0 12 = 0#12
  | .shldrop => w.extractLsb' 0 12 = 0#12
  | .shlloop => w.extractLsb' 0 12 = 0#12
  | .flush => w.extractLsb' 0 12 = 0#12
  | .emit reg value => rowField w = reg.number ∧ valueField w = value
  | .reserved low => w.extractLsb' 0 14 = low

/-- The encoder writes the opcode of a command and its fields, and nothing else (30_encoding.md R61, R66). -/
theorem encode_eq_iff {i : Instr} {w : Word} : encode i = w ↔ opField w = i.opcode ∧ i.ReadFrom w := by
  cases i with
  | nop | clear | shrdrop | shrloop | shldrop | shlloop | flush => exact formatZ_eq_iff
  | set => exact formatC_lit_eq_iff
  | toggle | get => exact formatC_eq_iff
  | rowbits | emit => exact formatRE_eq_iff
  | reserved => exact reserved_word_eq_iff

theorem DevReg.ofNumber_eq_some_iff {n : Nibble} {r : DevReg} : DevReg.ofNumber n = some r ↔ n = r.number :=
  ⟨fun h => (DevReg.number_of_ofNumber h).symm, fun h => h ▸ DevReg.ofNumber_number r⟩

/-- The registers have every number but 0xD and 0xE (42_row_serializer.md R120). -/
theorem DevReg.exists_number_iff {n : Nibble} : (∃ r : DevReg, n = r.number) ↔ n ≠ 0xD#4 ∧ n ≠ 0xE#4 := by
  simp only [← DevReg.ofNumber_eq_some_iff, ← Option.ne_none_iff_exists', ne_eq, DevReg.ofNumber_eq_none_iff, not_or]

theorem Instr.reserved_opcode_ge (low : BitVec 14) : 0xC ≤ (Instr.reserved low).opcode.toNat := by
  have all : ∀ upper : BitVec 2, 0xC ≤ (0b11#2 ++ upper).toNat := by decide
  exact all _

section

variable {leftShift : Bool} {w : Word} {i : Instr}

/-- The opcodes from 0xC on decode to the reserved row, whatever the other bits (30_encoding.md R67, log entry 17). -/
theorem decodeWith_reserved_opcode (high : 0xC ≤ (opField w).toNat) :
    decodeWith leftShift w = .ok (.reserved (w.extractLsb' 0 14)) := by
  unfold decodeWith
  split
  case h_13 => rfl
  all_goals omega

/-- Opcode 0xB decodes to the EMIT of the register listed under the number in the word (30_encoding.md R69). -/
theorem decodeWith_emit_opcode (op : opField w = 0xB#4) :
    decodeWith leftShift w = .ok i ↔ ∃ reg, rowField w = reg.number ∧ .emit reg (valueField w) = i := by
  simp only [← DevReg.ofNumber_eq_some_iff]
  cases listed : DevReg.ofNumber (rowField w) <;> simp [decodeWith, op, listed]

/-- On a word with the opcode of a command, the decoder reads the command's fields. -/
theorem decodeWith_eq_ok_iff_of_opcode (op : opField w = i.opcode) :
    decodeWith leftShift w = .ok i ↔ i.wellFormed leftShift = true ∧ i.ReadFrom w := by
  cases i with
  | nop | clear | shrdrop | shrloop | flush =>
    simp [decodeWith, op, Instr.opcode, requireZero_eq_ok, Instr.wellFormed, Instr.ReadFrom]
  | set | toggle | get | rowbits =>
    simp [decodeWith, op, Instr.opcode, requireZero_eq_ok, Instr.wellFormed, Instr.ReadFrom,
      and_assoc, and_comm, and_left_comm]
  | shldrop | shlloop =>
    simp [decodeWith, op, Instr.opcode, requireLeftShift_eq_ok, Instr.wellFormed, Instr.ReadFrom]
  | emit reg value =>
    rw [decodeWith_emit_opcode op]
    simp [Instr.wellFormed, Instr.ReadFrom]
  | reserved low =>
    rw [decodeWith_reserved_opcode (op ▸ Instr.reserved_opcode_ge low)]
    simp [Instr.wellFormed, Instr.ReadFrom]

/-- The decoder answers a command exactly when the block has it and the word has its opcode and its fields
(30_encoding.md R71). -/
theorem decodeWith_eq_ok_iff :
    decodeWith leftShift w = .ok i ↔ i.wellFormed leftShift = true ∧ opField w = i.opcode ∧ i.ReadFrom w := by
  constructor
  · intro decoded
    have op := (decode_opcode decoded).symm
    obtain ⟨present, fields⟩ := (decodeWith_eq_ok_iff_of_opcode op).mp decoded
    exact ⟨present, op, fields⟩
  · rintro ⟨present, op, fields⟩
    exact (decodeWith_eq_ok_iff_of_opcode op).mpr ⟨present, fields⟩

end

/-- Settles O7: decoding to a command and being its encoding both say that the word has its opcode and its fields. -/
theorem decodeInvertsEncode : Obligations.DecodeInvertsEncode := by
  unfold Obligations.DecodeInvertsEncode
  intro leftShift w i
  rw [decodeWith_eq_ok_iff, encode_eq_iff]

/-- Settles O9: the words are literals, and the decoder evaluates. -/
theorem sampleWordsDecode : Obligations.SampleWordsDecode := by
  unfold Obligations.SampleWordsDecode
  decide

end Sys2Proof
end

section
/-! SUPPORT. The rows of the opcode map: a word matches a row exactly when it has the row's opcode and no bit in its `zero`
field (30_encoding.md R66). -/

namespace Sys2Proof

open Machine (zeroBits)

/-- Match and mask of the row that an opcode belongs to, from the formats: the opcode and the bits that are `zero`. The
opcodes from 0xC on share the reserved row (30_encoding.md R61, R66, R67). -/
def opcodeRow (op : Nibble) : Word × Word :=
  if op.toNat < 0xC then (op ++ 0#12, 0xF000#16 ||| zeroBits op) else (0xC000#16, 0xC000#16)

theorem opcodeRow_eq_iff {a b : Nibble} :
    opcodeRow a = opcodeRow b ↔ a = b ∨ (0xC ≤ a.toNat ∧ 0xC ≤ b.toNat) := by
  revert a b
  decide

theorem matchAndMask_eq_opcodeRow (i : Instr) : i.matchAndMask = opcodeRow i.opcode := by
  cases i with
  | reserved low => rw [opcodeRow, if_neg (Nat.not_lt.mpr (Instr.reserved_opcode_ge low)), Instr.matchAndMask]
  | _ => simp only [Instr.matchAndMask, Instr.opcode]; decide

/-- A masked word is an opcode and twelve zeros exactly when its masked opcode is that one and its other bits are masked
out. -/
theorem and_eq_opcode_iff (w mask : Word) (op : Nibble) :
    w &&& mask = op ++ 0#12 ↔
      opField w &&& opField mask = op ∧ w.extractLsb' 0 12 &&& mask.extractLsb' 0 12 = 0#12 := by
  rw [eq_comm, formatZ_eq_iff, opField, BitVec.extractLsb'_and, BitVec.extractLsb'_and]
  rfl

section

variable {leftShift : Bool} {w : Word} {op : Nibble} {row : Instr}

/-- A word matches the row of a command's opcode. -/
theorem matches_opcodeRow_iff (low : op.toNat < 0xC) :
    w &&& (opcodeRow op).2 = (opcodeRow op).1 ↔ opField w = op ∧ w &&& zeroBits op = 0#16 := by
  have mask_opcode : opField (0xF000#16 ||| zeroBits op) = BitVec.allOnes 4 := by revert op; decide
  have mask_rest : (0xF000#16 ||| zeroBits op).extractLsb' 0 12 = (zeroBits op).extractLsb' 0 12 := by
    revert op; decide
  have zero_opcode : opField (zeroBits op) = 0#4 := by revert op; decide
  have zero_iff := and_eq_opcode_iff w (zeroBits op) 0#4
  rw [zero_opcode, BitVec.and_zero, eq_self, true_and] at zero_iff
  rw [opcodeRow, if_pos low, and_eq_opcode_iff, mask_opcode, mask_rest, BitVec.and_allOnes, ← zero_iff]
  rfl

/-- A word matches the reserved row. -/
theorem matches_reserved_opcodeRow_iff (high : 0xC ≤ op.toNat) :
    w &&& (opcodeRow op).2 = (opcodeRow op).1 ↔ 0xC ≤ (opField w).toNat := by
  have upper : ∀ n : Nibble, n &&& 0xC#4 = 0xC#4 ↔ 0xC ≤ n.toNat := by decide
  have mask_rest : (0xC000#16).extractLsb' 0 12 = 0#12 := rfl
  have masked := and_eq_opcode_iff w 0xC000#16 0xC#4
  rw [mask_rest, BitVec.and_zero, eq_self, and_true] at masked
  rw [opcodeRow, if_neg (Nat.not_lt.mpr high), ← upper]
  exact masked

/-- A word with the opcode of a row present decodes exactly when its `zero` field is zero and, for EMIT, its register is
listed (30_encoding.md R68, R69). -/
theorem decodes_iff_of_opcode (present : row.wellFormed leftShift = true) (low : row.opcode.toNat < 0xC)
    (op : opField w = row.opcode) :
    (∃ i, decodeWith leftShift w = .ok i) ↔
      w &&& zeroBits row.opcode = 0#16 ∧ (row.opcode = 0xB#4 → rowField w ≠ 0xD#4 ∧ rowField w ≠ 0xE#4) := by
  cases row with
  | nop | clear | shrdrop | shrloop | flush =>
    simp [decodeWith, op, Instr.opcode, requireZero_eq_ok, zeroBits, formatZ_zero_iff]
  | shldrop | shlloop =>
    obtain rfl : leftShift = true := present
    simp [decodeWith, op, Instr.opcode, requireLeftShift_eq_ok, zeroBits, formatZ_zero_iff]
  | set => simp [decodeWith, op, Instr.opcode, requireZero_eq_ok, zeroBits, formatC_set_zero_iff]
  | toggle | get => simp [decodeWith, op, Instr.opcode, requireZero_eq_ok, zeroBits, formatC_zero_iff]
  | rowbits => simp [decodeWith, op, Instr.opcode, requireZero_eq_ok, zeroBits, formatR_zero_iff]
  | emit =>
    rw [← DevReg.exists_number_iff]
    simp [decodeWith_emit_opcode op, Instr.opcode, zeroBits]
  | reserved bits => exact absurd (Instr.reserved_opcode_ge bits) (Nat.not_le.mpr low)

/-- A word decodes to a command of a row exactly when its opcode belongs to the row and it decodes at all. -/
theorem decodes_to_row_iff :
    (∃ i, decodeWith leftShift w = .ok i ∧ i.matchAndMask = row.matchAndMask) ↔
      opcodeRow (opField w) = opcodeRow row.opcode ∧ ∃ i, decodeWith leftShift w = .ok i := by
  have same_row {i : Instr} (decoded : decodeWith leftShift w = .ok i) :
      i.matchAndMask = row.matchAndMask ↔ opcodeRow (opField w) = opcodeRow row.opcode := by
    rw [← decode_opcode decoded, matchAndMask_eq_opcodeRow, matchAndMask_eq_opcodeRow]
  constructor
  · rintro ⟨i, decoded, same⟩
    exact ⟨(same_row decoded).mp same, i, decoded⟩
  · rintro ⟨same, i, decoded⟩
    exact ⟨i, decoded, (same_row decoded).mpr same⟩

end

/-- Settles O8: a row below the reserved one is selected by its opcode and a zero `zero` field, the reserved row by the two
upper bits. -/
theorem opcodeMapSelects : Obligations.OpcodeMapSelects := by
  unfold Obligations.OpcodeMapSelects
  intro leftShift w row present
  rw [decodes_to_row_iff, opcodeRow_eq_iff, matchAndMask_eq_opcodeRow]
  rcases Nat.lt_or_ge row.opcode.toNat 0xC with low | high
  · rw [matches_opcodeRow_iff low, and_assoc]
    simp only [Nat.not_le.mpr low, and_false, or_false]
    exact and_congr_right (decodes_iff_of_opcode present low)
  · have not_emit : row.opcode ≠ 0xB#4 := by
      intro emit
      simp [emit] at high
    have reserved_iff : opField w = row.opcode ∨ 0xC ≤ (opField w).toNat ↔ 0xC ≤ (opField w).toNat :=
      or_iff_right_of_imp fun same => same ▸ high
    simp only [matches_reserved_opcodeRow_iff high, not_emit, false_implies, and_true, high, reserved_iff]
    exact and_iff_left_of_imp fun reserved => ⟨_, decodeWith_reserved_opcode reserved⟩

end Sys2Proof
end

section
/-! SUPPORT. The words that raise `IllegalCommand` in the step that accepts them (60_exceptions.md R141): those the decoder
refuses, and those of the reserved row. -/

namespace Sys2Proof.Machine

theorem raisedError_illegalCommand (op : Nibble) (s : State) :
    RaisedError (illegalCommand op s) op .illegalCommand 0#8 := ⟨rfl, rfl, rfl, rfl, rfl⟩

theorem sameEnvironment_illegalCommand (op : Nibble) (s : State) : SameEnvironment s (illegalCommand op s) :=
  ⟨rfl, rfl, rfl, rfl, rfl, rfl⟩

theorem exec_reserved (low : BitVec 14) (s : State) :
    exec (.reserved low) s = .next (illegalCommand (Instr.reserved low).opcode s) := rfl

section

variable {p : Params} {s : State} {w : Word} {op : Nibble}

theorem raisesIllegal_of_acceptWord (acc : Accepts s w)
    (answer : acceptWord p w s.sample = .next (illegalCommand op s.sample.takeCommand)) : RaisesIllegal p s op :=
  ⟨_, (stepWith_accepts p acc).trans answer, raisedError_illegalCommand _ _, rfl, rfl⟩

/-- A word that the decoder refuses raises (40_pixel_buffer.md R80). -/
theorem raisesIllegal_of_decode_error (acc : Accepts s w) {e : DecodeError}
    (refused : decodeWith p.leftShiftPresent w = .error e) : RaisesIllegal p s (opField w) :=
  raisesIllegal_of_acceptWord acc (by rw [acceptWord, refused])

/-- A word with a reserved opcode raises, through the meaning of the reserved row (30_encoding.md R67, log entry 17). -/
theorem raisesIllegal_of_reserved_opcode (acc : Accepts s w) (high : 0xC ≤ (opField w).toNat) :
    RaisesIllegal p s (opField w) := by
  have decoded := decodeWith_reserved_opcode (leftShift := p.leftShiftPresent) high
  apply raisesIllegal_of_acceptWord acc
  rw [← decode_opcode decoded, ← exec_reserved, acceptWord, decoded]

/-- Both left shifts are refused where they are absent (30_encoding.md R67). -/
theorem refusedWithoutLeftShift (left : op = 0x8#4 ∨ op = 0x9#4) : RefusedWithoutLeftShift op := by
  rintro p s w absent acc rfl
  have refused : decodeWith p.leftShiftPresent w = .error .leftShiftAbsent := by
    rcases left with left | left <;> simp [decodeWith, left, absent, requireLeftShift]
  exact raisesIllegal_of_decode_error acc refused

end

/-- Settles O19: the reserved opcodes decode to the reserved row and raise there, and the absent left shifts are refused by
the decoder. -/
theorem reservedOpcodesRaise : Obligations.ReservedOpcodesRaise := by
  refine ⟨fun _ _ high => ⟨_, decodeWith_reserved_opcode high⟩, refusedWithoutLeftShift (.inl rfl),
    refusedWithoutLeftShift (.inr rfl), fun _ _ _ => raisesIllegal_of_reserved_opcode, fun s low => ?_⟩
  rw [Laws.OpcodeField.reserved low]
  exact ⟨_, exec_reserved low s, raisedError_illegalCommand _ _, rfl, sameEnvironment_illegalCommand _ _⟩

/-- Settles O11: each expansion is a list of literal commands. -/
theorem pseudoExpansions : Obligations.PseudoExpansions :=
  ⟨fun _ _ => rfl, fun _ _ => rfl, by decide, by decide, by decide⟩

end Sys2Proof.Machine
end

section
/-! SUPPORT. What the words of the pixel buffer commands have in common: they match their row of the opcode map, and a word
of their opcode with a bit in its `zero` field is refused (30_encoding.md R66, R68). -/

namespace Sys2Proof.Machine

/-- The word of a command matches the command's row, since it decodes to the command. -/
theorem encode_matches (i : Instr) : encode i &&& i.matchAndMask.2 = i.matchAndMask.1 := by
  have present : i.wellFormed true = true := by cases i <;> rfl
  have decoded : decodeWith true (encode i) = .ok i := (decodeInvertsEncode true (encode i) i).mpr ⟨present, rfl⟩
  obtain ⟨matched, -⟩ := (opcodeMapSelects true (encode i) i present).mp ⟨i, decoded, rfl⟩
  exact matched

/-- The word of a command has the command's operands in its fields. -/
theorem encode_readFrom (i : Instr) : i.ReadFrom (encode i) := (encode_eq_iff.mp rfl).2

/-- A word with a bit in the `zero` field of its opcode decodes to no command, so its acceptance raises (60_exceptions.md
R141). -/
theorem refusesBits_zeroBits {op : Nibble} (low : op.toNat < 0xC) : RefusesBits op (zeroBits op) := by
  rintro p s w acc rfl bits
  cases decoded : decodeWith p.leftShiftPresent w with
  | error e => exact raisesIllegal_of_decode_error acc decoded
  | ok i =>
    obtain ⟨present, op, -⟩ := decodeWith_eq_ok_iff.mp decoded
    obtain ⟨zero, -⟩ := (decodes_iff_of_opcode present (op ▸ low) op).mp ⟨i, decoded⟩
    exact absurd (op ▸ zero) bits

end Sys2Proof.Machine
end

section
/-! SUPPORT. The two ways a pixel buffer command answers (40_pixel_buffer.md R80): it completes, with a new buffer or the old
one, or it raises and writes no cell. -/

namespace Sys2Proof.Machine

section

variable (op : Nibble) (data : Byte) (fb : FrameBuffer) (s : State)

theorem completedOk_complete : CompletedOk s (complete data { openCommand op s with fb := fb }) op data := ⟨rfl, rfl⟩

theorem sameSequencing_complete : SameSequencing s (complete data { openCommand op s with fb := fb }) := ⟨rfl, rfl, rfl⟩

theorem sameEnvironment_complete : SameEnvironment s (complete data { openCommand op s with fb := fb }) :=
  ⟨rfl, rfl, rfl, rfl, rfl, rfl⟩

end

/-- A command that raises in its own step writes no cell and leaves the environment (60_exceptions.md R143). -/
theorem raise_answer {i : Instr} {s : State} {op : Nibble} {e : Err} {info : Byte}
    (raised : exec i s = .next (raise e info (openCommand op s))) :
    ∃ t, exec i s = .next t ∧ t.fb = s.fb ∧ RaisedError t op e info ∧ SameEnvironment s t :=
  ⟨_, raised, rfl, ⟨rfl, rfl, rfl, rfl, rfl⟩, ⟨rfl, rfl, rfl, rfl, rfl, rfl⟩⟩

/-- The response word of a NOP shows nothing but `sticky` (40_pixel_buffer.md R81). -/
theorem Rsp.word_of_nop (sticky : Bool) :
    Rsp.word { op := 0x0#4, sticky := sticky, status := .ok, data := 0#8 } =
      if sticky then 0x0800#16 else 0x0000#16 := by
  cases sticky <;> rfl

theorem cell_clearBuffer (r c : Fin 8) : cell clearBuffer r c = false := cell_reset r c

/-- A cell overwritten with its negation, seen from every cell (40_pixel_buffer.md R84). -/
theorem cell_setCell_not (fb : FrameBuffer) (r c k d : Fin 8) :
    cell (setCell fb r c (!cell fb r c)) k d = if k = r ∧ d = c then !cell fb k d else cell fb k d := by
  rw [cell_setCell]
  by_cases named : k = r ∧ d = c
  · obtain ⟨rfl, rfl⟩ := named
    rfl
  · rw [if_neg named, if_neg named]

theorem fbQ_clearBuffer : fbQ clearBuffer = 0#64 := by decide

/-- A cell as response data (40_pixel_buffer.md R85). -/
theorem ofBool_setWidth (lit : Bool) : (BitVec.ofBool lit).setWidth 8 = if lit then 0x01#8 else 0x00#8 := by
  cases lit <;> rfl

/-- Settles O13: NOP completes with the buffer it had. -/
theorem nopOnlyResponds : Obligations.NopOnlyResponds :=
  ⟨rfl, refusesBits_zeroBits (by decide), fun s => ⟨_, rfl, completedOk_complete _ _ s.fb s, rfl,
    Rsp.word_of_nop s.rsp.sticky, sameSequencing_complete _ _ s.fb s, sameEnvironment_complete _ _ s.fb s⟩⟩

/-- Settles O14: CLEAR completes with the buffer of zero rows. -/
theorem clearUnlightsEveryCell : Obligations.ClearUnlightsEveryCell :=
  ⟨rfl, refusesBits_zeroBits (by decide), fun s => ⟨_, rfl, cell_clearBuffer, fbQ_clearBuffer,
    completedOk_complete _ _ _ s, sameSequencing_complete _ _ _ s, sameEnvironment_complete _ _ _ s⟩⟩

/-- Settles O15: SET completes with the named cell written, or finds no cell and raises. -/
theorem setWritesOneCell : Obligations.SetWritesOneCell := by
  refine ⟨fun row col lit => ?_, refusesBits_zeroBits (by decide), fun s r c lit => ?_, fun s row col lit out => ?_⟩
  · obtain ⟨hrow, hcol, -, hlit⟩ := encode_readFrom (.set row col lit)
    exact ⟨encode_matches (.set row col lit), hrow, hcol, hlit⟩
  · exact ⟨_, exec_set_some (cellOperand_indexNibble r c) lit s, fun k d => cell_setCell s.fb r c k d lit,
      completedOk_complete _ _ _ s, sameSequencing_complete _ _ _ s, sameEnvironment_complete _ _ _ s⟩
  · exact raise_answer (exec_set_none (cellOperand_outOfRange out) lit s)

/-- Settles O16: TOGGLE completes with the negation of the named cell written to it, or finds no cell and raises. -/
theorem toggleFlipsOneCell : Obligations.ToggleFlipsOneCell := by
  refine ⟨fun row col => ?_, refusesBits_zeroBits (by decide), fun s r c => ?_, fun s row col out => ?_⟩
  · obtain ⟨hrow, hcol, -⟩ := encode_readFrom (.toggle row col)
    exact ⟨encode_matches (.toggle row col), hrow, hcol⟩
  · exact ⟨_, exec_toggle_some (cellOperand_indexNibble r c) s, cell_setCell_not s.fb r c,
      completedOk_complete _ _ _ s, sameSequencing_complete _ _ _ s, sameEnvironment_complete _ _ _ s⟩
  · exact raise_answer (exec_toggle_none (cellOperand_outOfRange out) s)

/-- Settles O17: GET completes with the named cell as data and the buffer it had, or finds no cell and raises. -/
theorem getReturnsTheCell : Obligations.GetReturnsTheCell := by
  refine ⟨fun row col => ?_, refusesBits_zeroBits (by decide), fun s r c => ?_, fun s row col out => ?_⟩
  · obtain ⟨hrow, hcol, -⟩ := encode_readFrom (.get row col)
    exact ⟨encode_matches (.get row col), hrow, hcol⟩
  · rw [← ofBool_setWidth]
    exact ⟨_, exec_get_some (cellOperand_indexNibble r c) s, completedOk_complete _ _ s.fb s, rfl,
      sameSequencing_complete _ _ s.fb s, sameEnvironment_complete _ _ s.fb s⟩
  · exact raise_answer (exec_get_none (cellOperand_outOfRange out) s)

/-- Settles O18: ROWBITS completes with the named row as data and the buffer it had, or finds no row and raises. -/
theorem rowbitsReturnsTheRow : Obligations.RowbitsReturnsTheRow := by
  refine ⟨fun row => ?_, refusesBits_zeroBits (by decide), fun s r => ?_, fun s row out => ?_⟩
  · obtain ⟨hrow, -⟩ := encode_readFrom (.rowbits row)
    exact ⟨encode_matches (.rowbits row), hrow⟩
  · exact ⟨_, exec_rowbits_some (inBounds_indexNibble r) s, fun _ => rfl, completedOk_complete _ _ s.fb s, rfl,
      sameSequencing_complete _ _ s.fb s, sameEnvironment_complete _ _ s.fb s⟩
  · exact raise_answer (exec_rowbits_none (inBounds_eq_none.mpr out) s)

end Sys2Proof.Machine
end

section
/-! SUPPORT. The step that accepts a word (40_pixel_buffer.md R80): FLUSH and EMIT leave the block busy with their opcode,
every other word is answered in the step. -/

namespace Sys2Proof.Machine

/-- Settles O5: the step hands the accepting state to the command, and the accepting state is its fields. -/
theorem stepRunsTheDecodedCommand : Obligations.StepRunsTheDecodedCommand := by
  have runs (p : Params) (s : State) (w : Word) (i : Instr) (acc : Accepts s w)
      (decoded : decodeWith p.leftShiftPresent w = .ok i) : stepWith p s = exec i s.accepting := by
    rw [stepWith_accepts p acc, acceptWord, decoded, State.accepting]
  exact ⟨runs, runs Config.params, fun _ => rfl⟩

/-- FLUSH and EMIT start on the bus, with a phase that tells their opcode (42_row_serializer.md R124, R126). -/
theorem exec_starts_bus {i : Instr} (bus : i = .flush ∨ ∃ reg value, i = .emit reg value) (s : State) :
    ∃ phase pair, phase.opcode = some i.opcode ∧ exec i s = .next (startBus phase pair s) := by
  rcases bus with rfl | ⟨reg, value, rfl⟩
  · exact ⟨_, _, rfl, rfl⟩
  · exact ⟨_, _, rfl, rfl⟩

/-- A word that is no FLUSH and no EMIT is answered in the step that accepts it, with its opcode, and leaves the block
idle. -/
theorem acceptWord_answers (p : Params) {w : Word} {s : State} (idle : s.phase = .idle)
    (off_bus : ¬ ∃ i, decodeWith p.leftShiftPresent w = .ok i ∧ (i = .flush ∨ ∃ reg value, i = .emit reg value)) :
    ∃ t, acceptWord p w s = .next t ∧ t.cmd = none ∧ t.rspValid = true ∧ t.phase = .idle ∧
      t.rsp.op = opField w := by
  obtain ⟨i, decoded, h⟩ | ⟨-, -, h⟩ := acceptWord_cases p w s
  · have op := decode_opcode decoded
    obtain ⟨fb, data, done⟩ | ⟨e, raised⟩ | ⟨flush, -⟩ | ⟨reg, value, emit, -⟩ := exec_cases i s.takeCommand
    · exact ⟨_, h.trans done, rfl, rfl, idle, op⟩
    · exact ⟨_, h.trans raised, rfl, rfl, rfl, op⟩
    · exact absurd ⟨i, decoded, .inl flush⟩ off_bus
    · exact absurd ⟨i, decoded, .inr ⟨reg, value, emit⟩⟩ off_bus
  · exact ⟨_, h, rfl, rfl, rfl, rfl⟩

/-- Settles O34: a FLUSH or EMIT starts on the bus, any other word is answered at once. -/
theorem acceptedWordIsAnswered : Obligations.AcceptedWordIsAnswered := by
  unfold Obligations.AcceptedWordIsAnswered
  intro p s w acc
  by_cases on_bus : ∃ i, decodeWith p.leftShiftPresent w = .ok i ∧ (i = .flush ∨ ∃ r v, i = .emit r v)
  · obtain ⟨i, decoded, bus⟩ := on_bus
    obtain ⟨phase, pair, op, started⟩ := exec_starts_bus bus s.accepting
    obtain ⟨runs, -, -⟩ := stepRunsTheDecodedCommand
    have answered := (runs p s w i acc decoded).trans started
    have busy : phase ≠ .idle := Phase.ne_idle_of_opcode op
    rw [decode_opcode decoded] at op
    exact ⟨_, answered, rfl, iff_of_false Bool.false_ne_true busy, fun idle => absurd idle busy, fun _ => ⟨op, rfl⟩,
      iff_of_false busy (not_not_intro ⟨i, decoded, bus⟩)⟩
  · obtain ⟨t, answered, port, valid, idle, op⟩ := acceptWord_answers p (s := s.sample) acc.idle on_bus
    exact ⟨t, (stepWith_accepts p acc).trans answered, port, iff_of_true valid idle, fun _ => op,
      fun busy => absurd idle busy, iff_of_true idle on_bus⟩

end Sys2Proof.Machine
end

section
/-! SUPPORT. Runs of pixel buffer commands (40_pixel_buffer.md R88 to R91), from what one command does to the cells. -/

namespace Sys2Proof.Machine

theorem execAll_cons_next {i : Instr} {s t : State} (h : exec i s = .next t) (rest : List Instr) :
    execAll (i :: rest) s = execAll rest t := by
  rw [execAll, h]

theorem execAll_append_next {before : List Instr} {s t : State} (h : execAll before s = .next t) (rest : List Instr) :
    execAll (before ++ rest) s = execAll rest t := by
  induction before generalizing s with
  | nil =>
    cases h
    rfl
  | cons i before ih =>
    rw [List.cons_append]
    cases first : exec i s with
    | next u =>
      rw [execAll_cons_next first] at h ⊢
      exact ih h
    | fault r => simp [execAll, first] at h
    | refused r => simp [execAll, first] at h

/-- Settles O36: the second TOGGLE negates the negated cell, and no other cell was written. -/
theorem toggleTwiceRestores : Obligations.ToggleTwiceRestores := by
  unfold Obligations.ToggleTwiceRestores
  intro s r c
  obtain ⟨-, -, flips, -⟩ := toggleFlipsOneCell
  obtain ⟨t, first, once, -⟩ := flips s r c
  obtain ⟨u, second, twice, -⟩ := flips t r c
  refine ⟨u, by rw [execAll_cons_next first, execAll_cons_next second, execAll], fb_eq_of_cells fun k d => ?_⟩
  rw [twice, once]
  by_cases named : k = r ∧ d = c
  · simp only [if_pos named, Bool.not_not]
  · simp only [if_neg named]

/-- SETs of columns of a row leave the pattern in those columns and every other cell as it was (40_pixel_buffer.md R89). -/
theorem execAll_set_columns (r : Fin 8) (pattern : Fin 8 → Bool) (columns : List (Fin 8)) (s : State) :
    ∃ t, execAll (columns.map fun c => .set (indexNibble r) (indexNibble c) (pattern c)) s = .next t ∧
      ∀ k d, cell t.fb k d = if k = r ∧ d ∈ columns then pattern d else cell s.fb k d := by
  induction columns generalizing s with
  | nil => exact ⟨s, rfl, by simp⟩
  | cons c columns ih =>
    obtain ⟨-, -, writes, -⟩ := setWritesOneCell
    obtain ⟨u, first, written, -⟩ := writes s r c (pattern c)
    obtain ⟨t, rest, cells⟩ := ih u
    refine ⟨t, (execAll_cons_next first _).trans rest, fun k d => ?_⟩
    rw [cells, written]
    by_cases here : d = c
    · subst here
      by_cases hk : k = r <;> simp [hk]
    · simp [here]

/-- Settles O37: the eight SETs write every column of the row, and ROWBITS reads it. -/
theorem rowSetThenReadBack : Obligations.RowSetThenReadBack := by
  have reads_back (s : State) (r : Fin 8) (pattern : Fin 8 → Bool) : ∃ t,
      execAll (((List.finRange 8).map fun c => .set (indexNibble r) (indexNibble c) (pattern c)) ++
        [.rowbits (indexNibble r)]) s = .next t ∧
      t.rsp.status = .ok ∧ (∀ c : Fin 8, t.rsp.data.getLsbD (7 - c.val) = pattern c) := by
    obtain ⟨u, sets, cells⟩ := execAll_set_columns r pattern (List.finRange 8) s
    obtain ⟨-, -, reads, -⟩ := rowbitsReturnsTheRow
    obtain ⟨t, read, bits, ⟨response, -⟩, -⟩ := reads u r
    refine ⟨t, by rw [execAll_append_next sets, execAll_cons_next read, execAll], by rw [response], fun c => ?_⟩
    rw [bits, cells, if_pos ⟨rfl, List.mem_finRange c⟩]
  refine ⟨reads_back, fun s r => ?_⟩
  obtain ⟨t, run, -, bits⟩ := reads_back s r fun c => decide (c = 0 ∨ c = 2)
  have columns_0xA0 : ∀ c : Fin 8, columnBit 0xA0#8 c = decide (c = 0 ∨ c = 2) := by decide
  exact ⟨t, run, byte_eq_of_columns fun c => (bits c).trans (columns_0xA0 c).symm⟩

/-- A read of a clear buffer leaves it clear and answers 0, in bounds or not (40_pixel_buffer.md R85, R86, R91). -/
theorem exec_onlyReads_of_clear {i : Instr} (reads : i.onlyReads = true) {s : State} (clear : s.fb = clearBuffer) :
    ∃ t, exec i s = .next t ∧ t.fb = clearBuffer ∧ t.rsp.data = 0#8 := by
  cases i with
  | get row col =>
    cases operand : cellOperand row col with
    | some rc =>
      refine ⟨_, exec_get_some operand s, clear, ?_⟩
      simp [clear, cell_clearBuffer]
    | none => exact ⟨_, exec_get_none operand s, clear, rfl⟩
  | rowbits row =>
    cases operand : inBounds row with
    | some r =>
      refine ⟨_, exec_rowbits_some operand s, clear, ?_⟩
      simp [clear]
    | none => exact ⟨_, exec_rowbits_none operand s, clear, rfl⟩
  | nop | clear | set | toggle | shrdrop | shrloop | shldrop | shlloop | flush | emit | reserved => cases reads

theorem execAll_onlyReads_of_clear {reads : List Instr} (only : ∀ i ∈ reads, i.onlyReads = true) {s : State}
    (clear : s.fb = clearBuffer) (zero : s.rsp.data = 0#8) :
    ∃ t, execAll reads s = .next t ∧ t.fb = clearBuffer ∧ t.rsp.data = 0#8 := by
  induction reads generalizing s with
  | nil => exact ⟨s, rfl, clear, zero⟩
  | cons i reads ih =>
    obtain ⟨head, tail⟩ := List.forall_mem_cons.mp only
    obtain ⟨u, read, clear, zero⟩ := exec_onlyReads_of_clear head clear
    obtain ⟨t, rest, done⟩ := ih tail clear zero
    exact ⟨t, (execAll_cons_next read _).trans rest, done⟩

/-- Settles O38: a SET of the value a cell holds writes nothing new, and reads of a clear buffer answer 0. -/
theorem setIdempotentAndClearReadsZero : Obligations.SetIdempotentAndClearReadsZero := by
  refine ⟨fun s r c lit => ?_, fun s reads only => ?_⟩
  · obtain ⟨-, -, writes, -⟩ := setWritesOneCell
    obtain ⟨t, first, once, -⟩ := writes s r c lit
    obtain ⟨u, second, twice, -⟩ := writes t r c lit
    have same : u.fb = t.fb := fb_eq_of_cells fun k d => by
      rw [twice, once]
      by_cases named : k = r ∧ d = c
      · rw [if_pos named, if_pos named]
      · rw [if_neg named]
    refine ⟨t, u, by rw [execAll_cons_next first, execAll],
      by rw [execAll_cons_next first, execAll_cons_next second, execAll], same, fun k d other => ?_⟩
    rw [once, if_neg other]
  · obtain ⟨t, run, clear, zero⟩ := execAll_onlyReads_of_clear only
      (s := complete 0#8 { openCommand 0x1#4 s with fb := clearBuffer }) rfl rfl
    refine ⟨t, run, zero, fun r c => ?_⟩
    rw [clear, cell_clearBuffer]

end Sys2Proof.Machine
end

section
/-! SUPPORT. What the four shifts do to rows and cells (41_shift_engine.md R101 to R104), and the runs of shifts (R106 to
R109): a run that applies one function to every row is the composition of the functions of its commands. -/

namespace Sys2Proof.Machine

/-- What the shifts share: rows and columns are those of the row function, the response is OK with data 0, and nothing else
of the state is written (41_shift_engine.md R100). -/
theorem shiftRows_answer (op : Nibble) {f row : Byte → Byte} {column : Byte → Fin 8 → Bool}
    (columns : ∀ b c, columnBit (f b) c = column b c) (rows : ∀ b, f b = row b) (s : State) :
    (∀ r c, cell (shiftRows op f s).fb r c = column (rowBits s.fb r) c) ∧
      (∀ r, rowBits (shiftRows op f s).fb r = row (rowBits s.fb r)) ∧
      CompletedOk s (shiftRows op f s) op 0#8 ∧ SameSequencing s (shiftRows op f s) ∧
      SameEnvironment s (shiftRows op f s) :=
  ⟨fun r c => (cell_mapRows f s.fb r c).trans (columns _ c), fun r => (rowBits_mapRows f s.fb r).trans (rows _),
    completedOk_complete _ _ _ s, sameSequencing_complete _ _ _ s, sameEnvironment_complete _ _ _ s⟩

/-- Settles O20: every row is shifted right, and column 0 of the shifted row is unlit. -/
theorem shrdropShiftsRight : Obligations.ShrdropShiftsRight :=
  ⟨rfl, refusesBits_zeroBits (by decide), fun s =>
    ⟨_, rfl, shiftRows_answer 0x6#4 columnBit_shr8 (fun _ => rfl) s⟩⟩

/-- Settles O21: every row is rotated right, and column 0 of the rotated row is the old column 7. -/
theorem shrloopRotatesRight : Obligations.ShrloopRotatesRight :=
  ⟨rfl, refusesBits_zeroBits (by decide), fun s =>
    ⟨_, rfl, shiftRows_answer 0x7#4 columnBit_ror8 ror8_eq_rotateRight s⟩⟩

/-- Settles O22: every row is shifted left, and column 7 of the shifted row is unlit. -/
theorem shldropShiftsLeft : Obligations.ShldropShiftsLeft :=
  ⟨rfl, rfl, refusesBits_zeroBits (by decide), refusedWithoutLeftShift (.inl rfl), fun s =>
    ⟨_, rfl, shiftRows_answer 0x8#4 columnBit_shl8 (fun _ => rfl) s⟩⟩

/-- Settles O23: every row is rotated left, and column 7 of the rotated row is the old column 0. -/
theorem shlloopRotatesLeft : Obligations.ShlloopRotatesLeft :=
  ⟨rfl, rfl, refusesBits_zeroBits (by decide), refusedWithoutLeftShift (.inr rfl), fun s =>
    ⟨_, rfl, shiftRows_answer 0x9#4 columnBit_rol8 rol8_eq_rotateLeft s⟩⟩

/-- In every state the run answers a next state in which every row is `f` of its own old value (41_shift_engine.md R109). -/
def MapsRows (run : State → Outcome) (f : Byte → Byte) : Prop :=
  ∀ s, ∃ t, run s = .next t ∧ ∀ r, rowBits t.fb r = f (rowBits s.fb r)

theorem mapsRows_shiftRows (op : Nibble) (f : Byte → Byte) : MapsRows (fun s => .next (shiftRows op f s)) f :=
  fun s => ⟨_, rfl, rowBits_mapRows f s.fb⟩

theorem mapsRows_shrdrop : MapsRows (exec .shrdrop) shr8 := mapsRows_shiftRows _ _
theorem mapsRows_shrloop : MapsRows (exec .shrloop) ror8 := mapsRows_shiftRows _ _
theorem mapsRows_shldrop : MapsRows (exec .shldrop) shl8 := mapsRows_shiftRows _ _
theorem mapsRows_shlloop : MapsRows (exec .shlloop) rol8 := mapsRows_shiftRows _ _

/-- Settles O42: each shift maps its own function over the rows. -/
theorem shiftsAreLaneIndependent : Obligations.ShiftsAreLaneIndependent := by
  unfold Obligations.ShiftsAreLaneIndependent
  simp only [List.forall_mem_cons]
  exact ⟨⟨_, mapsRows_shrdrop⟩, ⟨_, mapsRows_shrloop⟩, ⟨_, mapsRows_shldrop⟩, ⟨_, mapsRows_shlloop⟩,
    List.forall_mem_nil _⟩

section

variable {run : State → Outcome} {i j : Instr} {rest : List Instr} {f g : Byte → Byte}

theorem mapsRows_execAll_nil : MapsRows (execAll []) id := fun s => ⟨s, rfl, fun _ => rfl⟩

theorem mapsRows_execAll_cons (head : MapsRows (exec i) f) (tail : MapsRows (execAll rest) g) :
    MapsRows (execAll (i :: rest)) (g ∘ f) := by
  intro s
  obtain ⟨u, first, shifted⟩ := head s
  obtain ⟨t, others, rows⟩ := tail u
  refine ⟨t, (execAll_cons_next first _).trans others, fun r => ?_⟩
  rw [rows, shifted, Function.comp_apply]

theorem mapsRows_execAll_pair (first : MapsRows (exec i) f) (second : MapsRows (exec j) g) :
    MapsRows (execAll [i, j]) (g ∘ f) :=
  mapsRows_execAll_cons first (mapsRows_execAll_cons (g := id) second mapsRows_execAll_nil)

/-- `k` times one command is `k` times its row function. -/
theorem mapsRows_execAll_replicate (once : MapsRows (exec i) f) (k : Nat) :
    MapsRows (execAll (List.replicate k i)) f^[k] := by
  induction k with
  | zero => exact mapsRows_execAll_nil
  | succ k ih => exact mapsRows_execAll_cons once ih

theorem MapsRows.cells (h : MapsRows run f) {column : Byte → Fin 8 → Bool}
    (columns : ∀ b c, columnBit (f b) c = column b c) (s : State) :
    ∃ t, run s = .next t ∧ ∀ r c, cell t.fb r c = column (rowBits s.fb r) c := by
  obtain ⟨t, runs, rows⟩ := h s
  refine ⟨t, runs, fun r c => ?_⟩
  rw [cell, rows, columns]

/-- A run whose row function is the identity restores the buffer. -/
theorem MapsRows.restores (h : MapsRows run f) (restored : ∀ b, f b = b) (s : State) :
    ∃ t, run s = .next t ∧ t.fb = s.fb := by
  obtain ⟨t, runs, rows⟩ := h s
  exact ⟨t, runs, fb_eq_of_rows fun r => (rows r).trans (restored _)⟩

/-- A run whose row function is constantly 0 unlights every cell. -/
theorem MapsRows.clears (h : MapsRows run f) (zero : ∀ b, f b = 0#8) (s : State) :
    ∃ t, run s = .next t ∧ ∀ r c, cell t.fb r c = false :=
  h.cells (fun b c => by rw [zero, columnBit_zero]) s

end

/-- A left and a right rotation cancel (41_shift_engine.md R108). -/
theorem ror8_rol8 : Function.LeftInverse ror8 rol8 := by
  intro b
  apply byte_eq_of_columns
  intro c
  rw [columnBit_ror8, columnBit_rol8, columnBit_rol8]
  by_cases first : c = 0
  · rw [if_pos first, if_pos rfl, first]
  · rw [if_neg first, if_neg (by omega), sub_add_cancel]

/-- On the finitely many bytes a left inverse is a right inverse too. -/
theorem rol8_ror8 : Function.LeftInverse rol8 ror8 :=
  ror8_rol8.rightInverse_of_surjective (Finite.surjective_of_injective ror8_rol8.injective)

/-- Left then right: column 0 fell off (41_shift_engine.md R108). -/
theorem columnBit_shr8_shl8 (b : Byte) (c : Fin 8) :
    columnBit (shr8 (shl8 b)) c = if c = 0 then false else columnBit b c := by
  rw [columnBit_shr8, columnBit_shl8]
  by_cases first : c = 0
  · rw [if_pos first, if_pos first]
  · rw [if_neg first, if_neg first, if_neg (by omega), sub_add_cancel]

/-- Right then left: column 7 fell off (41_shift_engine.md R108). -/
theorem columnBit_shl8_shr8 (b : Byte) (c : Fin 8) :
    columnBit (shl8 (shr8 b)) c = if c = 7 then false else columnBit b c := by
  rw [columnBit_shl8, columnBit_shr8]
  by_cases last : c = 7
  · rw [if_pos last, if_pos last]
  · rw [if_neg last, if_neg last, if_neg (by omega), add_sub_cancel_right]

/-- Settles O41: the composed row functions are the identity, or lose one column. -/
theorem leftAndRightShiftsCancel : Obligations.LeftAndRightShiftsCancel := fun s =>
  ⟨(mapsRows_execAll_pair mapsRows_shlloop mapsRows_shrloop).restores ror8_rol8 s,
    (mapsRows_execAll_pair mapsRows_shrloop mapsRows_shlloop).restores rol8_ror8 s,
    (mapsRows_execAll_pair mapsRows_shldrop mapsRows_shrdrop).cells columnBit_shr8_shl8 s,
    (mapsRows_execAll_pair mapsRows_shrdrop mapsRows_shldrop).cells columnBit_shl8_shr8 s⟩

theorem getLsbD_rotateRight_byte (b : Byte) (k : Nat) {i : Nat} (inside : i < 8) :
    (b.rotateRight k).getLsbD i = b.getLsbD ((k + i) % 8) := by
  rw [BitVec.getLsbD_rotateRight]
  by_cases low : i < 8 - k % 8
  · rw [decide_eq_true low, cond_true]
    congr 1
    omega
  · rw [decide_eq_false low, cond_false, decide_eq_true inside, Bool.true_and]
    congr 1
    omega

theorem rotateRight_succ (b : Byte) (k : Nat) : b.rotateRight (k + 1) = (b.rotateRight k).rotateRight 1 := by
  apply BitVec.eq_of_getLsbD_eq
  intro i inside
  rw [getLsbD_rotateRight_byte _ _ inside, getLsbD_rotateRight_byte _ _ inside,
    getLsbD_rotateRight_byte _ _ (Nat.mod_lt _ (by decide))]
  congr 1
  omega

theorem ror8_iterate (k : Nat) (b : Byte) : ror8^[k] b = b.rotateRight k := by
  induction k with
  | zero => revert b; decide
  | succ k ih => rw [Function.iterate_succ_apply', ih, ror8_eq_rotateRight, ← rotateRight_succ]

theorem shr8_iterate (k : Nat) (b : Byte) : shr8^[k] b = b >>> k := by
  induction k with
  | zero => rfl
  | succ k ih => rw [Function.iterate_succ_apply', ih, shr8, BitVec.shiftRight_add]

theorem shl8_iterate (k : Nat) (b : Byte) : shl8^[k] b = b <<< k := by
  induction k with
  | zero => exact (BitVec.shiftLeft_zero b).symm
  | succ k ih => rw [Function.iterate_succ_apply', ih, shl8, BitVec.shiftLeft_add]

/-- Eight rotations right restore a row (41_shift_engine.md R106). -/
theorem ror8_iterate_eight (b : Byte) : ror8^[8] b = b := by
  rw [ror8_iterate, ← BitVec.rotateRight_mod_eq_rotateRight]
  exact (ror8_iterate 0 b).symm

/-- Eight rotations left restore a row, since they undo eight that do nothing (41_shift_engine.md R106). -/
theorem rol8_iterate_eight (b : Byte) : rol8^[8] b = b := by
  have undone := rol8_ror8.iterate 8 b
  rwa [ror8_iterate_eight] at undone

/-- Settles O39: the row function of the run is the iterated rotation. -/
theorem loopingShiftsRotate : Obligations.LoopingShiftsRotate := by
  refine ⟨fun s k => ?_, (mapsRows_execAll_replicate mapsRows_shrloop 8).restores ror8_iterate_eight,
    (mapsRows_execAll_replicate mapsRows_shlloop 8).restores rol8_iterate_eight⟩
  obtain ⟨t, run, rows⟩ := mapsRows_execAll_replicate mapsRows_shrloop k s
  exact ⟨t, run, fun r => (rows r).trans (ror8_iterate k _)⟩

/-- Settles O40: the row function of the run is the shift by `k`, and a shift by 8 leaves no bit. -/
theorem dropShiftsEmpty : Obligations.DropShiftsEmpty := by
  have right (b : Byte) : shr8^[8] b = 0#8 := (shr8_iterate 8 b).trans (BitVec.ushiftRight_eq_zero le_rfl)
  have left (b : Byte) : shl8^[8] b = 0#8 := (shl8_iterate 8 b).trans (BitVec.shiftLeft_eq_zero le_rfl)
  refine ⟨fun s k => ?_, (mapsRows_execAll_replicate mapsRows_shrdrop 8).clears right,
    (mapsRows_execAll_replicate mapsRows_shldrop 8).clears left⟩
  obtain ⟨t, run, rows⟩ := mapsRows_execAll_replicate mapsRows_shrdrop k s
  exact ⟨t, run, fun r => (rows r).trans (shr8_iterate k _)⟩

end Sys2Proof.Machine
end

section
/-! SUPPORT. The bus port while a command is in progress (42_row_serializer.md R127): what its steps leave alone, the waits
for an answer, and the replies that end the offer of a pair. -/

namespace Sys2Proof.Machine

/-- What no step of a busy block without a reset touches: the buffer, the command port, the Display Sink's record, and the host
agent but for the requests that arrive. -/
structure BusFrame (s t : State) : Prop where
  fb : t.fb = s.fb
  cmd : t.cmd = s.cmd
  shown : t.shown = s.shown
  host : ∃ queue, t.host = { s.host with queue := queue }

/-- A command accepted in `s` has come to `t`: it is in `phase` and offers `offer`, the offers of `sent` have ended, and
no response has been given. -/
structure Offering (s : State) (phase : Phase) (offer : Option Pair) (sent : List SinkEvent) (t : State) : Prop
    extends BusFrame s t where
  phase : t.phase = phase
  offer : t.offer = offer
  rsp : t.rsp = s.rsp
  sink : t.sink = s.sink ++ sent

/-- The state in which a step under a reply of the Bus Sink takes its turn: the reply on the ports, the inputs sampled. -/
def State.replied (r : SinkReply) (s : State) : State := State.sample { s with inp := r.onPorts s.inp }

/-- How the offer of a pair ends in a step under a reply, `waited` bus-wait steps after it began. -/
def SinkReply.turn (p : Params) (r : SinkReply) (waited : Nat) : Option Ending :=
  busTurn p.busTimeout (r ≠ .notYet) (r = .err) waited

/-- The replies end the offer of a pair with `e`: waits that do not reach `BUS_TIMEOUT`, and a last turn. -/
def EndsOffer (p : Params) (replies : List SinkReply) (e : Ending) : Prop :=
  ∃ wait r, WithinTimeout p wait ∧ r.turn p wait = some e ∧ replies = List.replicate wait .notYet ++ [r]

section

variable {p : Params} {wait limit : Nat}

theorem endsOffer_okAfter (within : WithinTimeout p wait) : EndsOffer p (okAfter wait) .ok :=
  ⟨wait, .ok, within, rfl, rfl⟩

theorem endsOffer_errAfter (within : WithinTimeout p wait) : EndsOffer p (errAfter wait) .err :=
  ⟨wait, .err, within, rfl, rfl⟩

theorem withinTimeout_iff (timed : p.busTimeout = some limit) : WithinTimeout p wait ↔ wait ≤ limit := by
  simp [WithinTimeout, timed]

theorem endsOffer_timedOut (timed : p.busTimeout = some limit) :
    EndsOffer p (List.replicate (limit + 1) .notYet) .timedOut :=
  ⟨limit, .notYet, (withinTimeout_iff timed).mpr le_rfl, busTurn_eq_some.mpr (.inr (.inr ⟨rfl, timed, rfl⟩)),
    List.replicate_succ'⟩

end

section

variable {p : Params} {r : SinkReply} {s t u : State} {k : Fin 8} {n : Fin 9} {e : Ending}

theorem stepReplied_flushing (flushing : s.phase = .flushing k n) :
    stepReplied p r s = .next (flushTurn p.busTimeout (r ≠ .notYet) (r = .err) k n (s.replied r)) := by
  simp [stepReplied, stepWith, SinkReply.onPorts, State.replied, flushing]

theorem stepReplied_emitting (emitting : s.phase = .emitting) :
    stepReplied p r s = .next (emitTurn p.busTimeout (r ≠ .notYet) (r = .err) (s.replied r)) := by
  simp [stepReplied, stepWith, SinkReply.onPorts, State.replied, emitting]

/-- A busy block without an answer, short of the timeout, waits on. -/
theorem stepReplied_notYet (busy : s.phase ≠ .idle) (untimed : p.busTimeout ≠ some s.waited) :
    stepReplied p .notYet s = .next (waitOn (s.replied .notYet)) := by
  have turn : SinkReply.turn p .notYet (s.replied .notYet).waited = none := busTurn_eq_none.mpr ⟨rfl, untimed⟩
  cases hp : s.phase with
  | idle => exact absurd hp busy
  | flushing k n => rw [stepReplied_flushing hp, flushTurn, ← SinkReply.turn, turn]
  | emitting => rw [stepReplied_emitting hp, emitTurn, ← SinkReply.turn, turn]

theorem stepReplied_flushing_ok (flushing : s.phase = .flushing k n)
    (ended : r.turn p (s.replied r).waited = some .ok) :
    stepReplied p r s = .next (flushAdvance k n (endOffer .ok (s.replied r))) := by
  rw [stepReplied_flushing flushing, flushTurn, ← SinkReply.turn, ended]

theorem stepReplied_flushing_failed (flushing : s.phase = .flushing k n)
    (ended : r.turn p (s.replied r).waited = some e) (failed : e ≠ .ok) :
    stepReplied p r s = .next (raise .busError (countByte n) (openCommand 0xA#4 (endOffer e (s.replied r)))) := by
  rw [stepReplied_flushing flushing, flushTurn, ← SinkReply.turn, ended]
  cases e with
  | ok => exact absurd rfl failed
  | err | timedOut | withdrawn => rfl

theorem stepReplied_emitting_ok (emitting : s.phase = .emitting) (ended : r.turn p (s.replied r).waited = some .ok) :
    stepReplied p r s =
      .next (complete 1#8 (openCommand 0xB#4 { endOffer .ok (s.replied r) with phase := .idle })) := by
  rw [stepReplied_emitting emitting, emitTurn, ← SinkReply.turn, ended]

theorem stepReplied_emitting_failed (emitting : s.phase = .emitting) (ended : r.turn p (s.replied r).waited = some e)
    (failed : e ≠ .ok) :
    stepReplied p r s = .next (raise .busError 0#8 (openCommand 0xB#4 (endOffer e (s.replied r)))) := by
  rw [stepReplied_emitting emitting, emitTurn, ← SinkReply.turn, ended]
  cases e with
  | ok => exact absurd rfl failed
  | err | timedOut | withdrawn => rfl

theorem runReplied_cons_next (first : stepReplied p r s = .next t) (rest : List SinkReply) :
    runReplied p (r :: rest) s = runReplied p rest t := by
  rw [runReplied, first]

theorem runReplied_singleton (p : Params) (r : SinkReply) (s : State) : runReplied p [r] s = stepReplied p r s := by
  rw [runReplied]
  cases stepReplied p r s <;> rfl

theorem runReplied_append_next {before : List SinkReply} (h : runReplied p before s = .next t)
    (rest : List SinkReply) : runReplied p (before ++ rest) s = runReplied p rest t := by
  induction before generalizing s with
  | nil =>
    cases h
    rfl
  | cons r before ih =>
    rw [List.cons_append]
    cases first : stepReplied p r s with
    | next u =>
      rw [runReplied_cons_next first] at h ⊢
      exact ih h
    | fault f => simp [runReplied, first] at h
    | refused f => simp [runReplied, first] at h

end

section

variable {p : Params} {s u : State} {phase : Phase} {offer : Option Pair} {sent : List SinkEvent} {e : Ending}

/-- A pair offered at the acceptance of a command. -/
theorem offering_startBus (phase : Phase) (pair : Pair) (s : State) :
    Offering s phase (some pair) [] (startBus phase pair s) where
  fb := rfl
  cmd := rfl
  shown := rfl
  host := ⟨_, rfl⟩
  phase := rfl
  offer := rfl
  rsp := rfl
  sink := (List.append_nil _).symm

theorem Offering.replied (now : Offering s phase offer sent u) (r : SinkReply) :
    Offering s phase offer sent (u.replied r) := by
  obtain ⟨queue, host⟩ := now.host
  have arrived : (u.replied r).host = { s.host with queue := queue ++ u.inp.request.toList } := by
    simp [State.replied, host, HostAgent.enqueue, SinkReply.onPorts]
  exact { now with host := ⟨_, arrived⟩ }

theorem Offering.waitOn (now : Offering s phase offer sent u) : Offering s phase offer sent (waitOn u) :=
  { now with }

/-- Waits that do not reach `BUS_TIMEOUT` change nothing of a command in progress but the wait count (42_row_serializer.md
R127). -/
theorem Offering.waits (now : Offering s phase offer sent u) (busy : phase ≠ .idle) {n : Nat}
    (within : WithinTimeout p (u.waited + n)) :
    ∃ t, runReplied p (List.replicate n .notYet) u = .next t ∧ Offering s phase offer sent t ∧
      t.waited = u.waited + n := by
  induction n generalizing u with
  | zero => exact ⟨u, rfl, now, rfl⟩
  | succ n ih =>
    have untimed : p.busTimeout ≠ some u.waited := fun timed => by
      have := within _ timed
      omega
    have next := (now.replied .notYet).waitOn
    have count : (Machine.waitOn (u.replied .notYet)).waited + n = u.waited + (n + 1) :=
      Nat.succ_add_eq_add_succ u.waited n
    obtain ⟨t, run, later, waited⟩ := ih next (count ▸ within)
    rw [List.replicate_succ, runReplied_cons_next (stepReplied_notYet (now.phase ▸ busy) untimed)]
    exact ⟨t, run, later, waited.trans count⟩

/-- Replies that end the offer of a pair just put on the port come down to one turn. -/
theorem Offering.ends (now : Offering s phase offer sent u) (busy : phase ≠ .idle) (fresh : u.waited = 0)
    {replies : List SinkReply} (ends : EndsOffer p replies e) :
    ∃ t r, runReplied p replies u = stepReplied p r t ∧ Offering s phase offer sent t ∧
      r.turn p t.waited = some e := by
  obtain ⟨wait, r, within, turn, rfl⟩ := ends
  have count : u.waited + wait = wait := by rw [fresh, Nat.zero_add]
  obtain ⟨t, run, later, waited⟩ := now.waits busy (count.symm ▸ within)
  refine ⟨t, r, ?_, later, ?_⟩
  · rw [runReplied_append_next run, runReplied_singleton]
  · rwa [← waited.trans count] at turn

/-- The state after a failed offer: the error is raised, the failed pair is recorded last (42_row_serializer.md R125). -/
theorem Offering.raises (now : Offering s phase offer sent u) (e : Ending) (op : Nibble) (count : Byte) :
    let t := raise .busError count (openCommand op (endOffer e u))
    BusFrame s t ∧ t.sink = s.sink ++ sent ++ endingEvents offer e ∧ RaisedError t op .busError count :=
  ⟨{ now with }, by simp [now.sink, now.offer], rfl, rfl, rfl, rfl, rfl⟩

/-- The state after the `ok` to the last pair: the command completes, the pair is recorded last (42_row_serializer.md R124,
R126). -/
theorem Offering.completes (now : Offering s phase offer sent u) (op : Nibble) (data : Byte) :
    let t := complete data (openCommand op { endOffer .ok u with phase := .idle })
    BusFrame s t ∧ t.sink = s.sink ++ sent ++ endingEvents offer .ok ∧ CompletedOk s t op data ∧
      t.phase = .idle ∧ t.offer = none :=
  ⟨{ now with }, by simp [now.sink, now.offer], ⟨by simp [now.rsp, Rsp.accepted, Rsp.completed], rfl⟩, rfl, rfl⟩

end

end Sys2Proof.Machine
end

section
/-! SUPPORT. FLUSH (42_row_serializer.md R124, R125): the block from one row's pair to the next, and the three ways the
command ends. -/

namespace Sys2Proof.Machine

theorem regByte_row (k : Fin 8) : regByte (.row k) = BitVec.ofNat 8 (k.val + 1) := by
  revert k
  decide

theorem rowPair_eq (fb : FrameBuffer) (k : Fin 8) :
    rowPair fb k = { reg := BitVec.ofNat 8 (k.val + 1), value := rowBits fb k } := by
  rw [rowPair, commandPair, regByte_row]

theorem finRange_take_succ (k : Fin 8) : (List.finRange 8).take (k.val + 1) = (List.finRange 8).take k.val ++ [k] := by
  revert k
  decide

theorem okEvents_succ (fb : FrameBuffer) (k : Fin 8) :
    okEvents fb (k.val + 1) = okEvents fb k.val ++ endingEvents (some (rowPair fb k)) .ok := by
  rw [okEvents, finRange_take_succ, List.map_append, ← okEvents, rowPair_eq]
  rfl

theorem okReplies_succ (waits : Fin 8 → Nat) (k : Fin 8) :
    okReplies waits (k.val + 1) = okReplies waits k.val ++ okAfter (waits k) := by
  rw [okReplies, finRange_take_succ, List.flatMap_append, ← okReplies, List.flatMap_singleton]

/-- The FLUSH accepted in `s` has come to `u`, where it has just offered row `k`, the rows before it answered `ok`
(42_row_serializer.md R124). -/
def FlushAt (s : State) (k : Fin 8) (u : State) : Prop :=
  Offering s (.flushing k k.castSucc) (some (rowPair s.fb k)) (okEvents s.fb k.val) u ∧ u.waited = 0

variable {p : Params} {s u : State} {waits : Fin 8 → Nat}

theorem flushAt_start (s : State) : FlushAt s 0 (startBus (.flushing 0 0) (rowPair s.fb 0) s) :=
  ⟨offering_startBus _ _ s, rfl⟩

/-- The `ok` to a row before the last brings the offer of the next row. -/
theorem FlushAt.next {k : Fin 7} (now : FlushAt s k.castSucc u) {replies : List SinkReply}
    (ends : EndsOffer p replies .ok) : ∃ t, runReplied p replies u = .next t ∧ FlushAt s k.succ t := by
  obtain ⟨now, fresh⟩ := now
  obtain ⟨t, r, run, now, ended⟩ := now.ends (by simp) fresh ends
  have after := now.replied r
  have more : k.castSucc ≠ 7 := k.castSucc_ne_last
  have succ : k.castSucc + 1 = k.succ := Fin.coeSucc_eq_succ
  have count : k.castSucc.castSucc + 1 = k.succ.castSucc := Fin.coeSucc_eq_succ
  rw [run, stepReplied_flushing_ok now.phase ended, flushAdvance_more more, succ, count]
  refine ⟨_, rfl, { after with phase := rfl, offer := ?_, sink := ?_ }, rfl⟩
  · exact congrArg (fun fb => some (rowPair fb k.succ)) after.fb
  · have events := okEvents_succ s.fb k.castSucc
    rw [Fin.val_succ, ← Fin.val_castSucc, events]
    simp [after.sink, after.offer]

/-- When the pairs before row `k` are answered `ok`, the FLUSH comes to row `k`. -/
theorem FlushAt.reaches (start : FlushAt s 0 u) (within : ∀ k, WithinTimeout p (waits k)) (k : Fin 8) :
    ∃ t, runReplied p (okReplies waits k.val) u = .next t ∧ FlushAt s k t := by
  induction k using Fin.induction with
  | zero => exact ⟨u, rfl, start⟩
  | succ k ih =>
    obtain ⟨v, before, now⟩ := ih
    obtain ⟨t, run, next⟩ := now.next (endsOffer_okAfter (within k.castSucc))
    refine ⟨t, ?_, next⟩
    rw [Fin.val_succ, ← Fin.val_castSucc, okReplies_succ, runReplied_append_next before, run]

/-- When all eight pairs are answered `ok`, the FLUSH delivers the rows and responds with 8 (42_row_serializer.md R124). -/
theorem FlushAt.delivers (start : FlushAt s 0 u) (within : ∀ k, WithinTimeout p (waits k)) :
    ∃ t, runReplied p (okReplies waits 8) u = .next t ∧ BusFrame s t ∧ t.sink = s.sink ++ okEvents s.fb 8 ∧
      CompletedOk s t 0xA#4 8#8 ∧ t.phase = .idle ∧ t.offer = none := by
  obtain ⟨v, before, now, fresh⟩ := start.reaches within 7
  obtain ⟨t, r, run, now, ended⟩ := now.ends (by simp) fresh (endsOffer_okAfter (within 7))
  have replies : okReplies waits 8 = okReplies waits (7 : Fin 8).val ++ okAfter (waits 7) := okReplies_succ waits 7
  have events : okEvents s.fb 8 = okEvents s.fb (7 : Fin 8).val ++ _ := okEvents_succ s.fb 7
  rw [replies, runReplied_append_next before, run, stepReplied_flushing_ok now.phase ended, flushAdvance_last, events,
    ← List.append_assoc]
  exact ⟨_, rfl, (now.replied r).completes 0xA#4 8#8⟩

/-- When the offer of row `j` ends without an `ok`, the rows after it are not offered, and the FLUSH responds `BusError`
with `j` (42_row_serializer.md R125). -/
theorem FlushAt.fails (start : FlushAt s 0 u) (within : ∀ k, WithinTimeout p (waits k)) (j : Fin 8)
    {failure : List SinkReply} {e : Ending} (ends : EndsOffer p failure e) (failed : e ≠ .ok) :
    ∃ t, runReplied p (okReplies waits j.val ++ failure) u = .next t ∧ BusFrame s t ∧
      t.sink = s.sink ++ okEvents s.fb j.val ++
        [{ pair := { reg := BitVec.ofNat 8 (j.val + 1), value := rowBits s.fb j }, ending := e }] ∧
      RaisedError t 0xA#4 .busError (BitVec.ofNat 8 j.val) := by
  obtain ⟨v, before, now, fresh⟩ := start.reaches within j
  obtain ⟨t, r, run, now, ended⟩ := now.ends (by simp) fresh ends
  rw [runReplied_append_next before, run, stepReplied_flushing_failed now.phase ended failed, ← rowPair_eq]
  exact ⟨_, rfl, (now.replied r).raises e 0xA#4 _⟩

/-- Settles O25: the rows are offered one after the other, and the eighth `ok` completes the command. -/
theorem flushDeliversEightPairs : Obligations.FlushDeliversEightPairs := by
  unfold Obligations.FlushDeliversEightPairs
  intro p s waits within
  obtain ⟨t, run, frame, sink, done, idle, free⟩ := (flushAt_start s).delivers within
  exact ⟨_, t, rfl, run, sink, frame.fb, done, idle, free, by simp [State.busValid, free],
    by simp [State.cmdReady, idle]⟩

/-- Settles O26: an `err` ends the offer of row `j`, and any failed offer ends the FLUSH. -/
theorem flushStopsAtTheFirstError : Obligations.FlushStopsAtTheFirstError := by
  unfold Obligations.FlushStopsAtTheFirstError
  intro p s waits j within
  obtain ⟨t, run, frame, sink, raised⟩ :=
    (flushAt_start s).fails within j (endsOffer_errAfter (within j)) (by decide)
  exact ⟨_, t, rfl, run, sink, frame.fb, raised⟩

/-- Settles O27: the timeout ends the offer of row `j`, and any failed offer ends the FLUSH. -/
theorem flushTimesOut : Obligations.FlushTimesOut := by
  unfold Obligations.FlushTimesOut
  intro p s waits j limit timed within
  obtain ⟨t, run, frame, sink, raised⟩ :=
    (flushAt_start s).fails (fun k => (withinTimeout_iff timed).mpr (within k)) j (endsOffer_timedOut timed)
      (by decide)
  exact ⟨_, t, rfl, run, sink, frame.fb, raised⟩

/-- Settles O24: the state at acceptance is one record, with the pair of row 0 on the port. -/
theorem flushOffersTheFirstRow : Obligations.FlushOffersTheFirstRow := by
  refine ⟨rfl, refusesBits_zeroBits (by decide), fun s => ?_⟩
  have pair : rowPair s.fb 0 = { reg := 0x01#8, value := rowBits s.fb 0 } := rowPair_eq s.fb 0
  have word : (rowPair s.fb 0).word = 0x01#8 ++ rowBits s.fb 0 := by rw [pair, Pair.word]
  exact ⟨_, rfl, rfl, congrArg some pair, rfl, congrArg some word, rfl, rfl, rfl, rfl,
    ⟨rfl, rfl, rfl, rfl, rfl, rfl⟩⟩

end Sys2Proof.Machine
end

section
/-! SUPPORT. EMIT (42_row_serializer.md R126): its word, its one pair, and the two ways it ends. -/

namespace Sys2Proof.Machine

section

variable {p : Params} {s u : State} {pair : Pair} {replies : List SinkReply} {e : Ending}

/-- The `ok` to its pair completes an EMIT with 1 (42_row_serializer.md R126). -/
theorem emit_delivers (p : Params) (s : State) (pair : Pair) (ends : EndsOffer p replies .ok) :
    ∃ t, runReplied p replies (startBus .emitting pair s) = .next t ∧ BusFrame s t ∧
      t.sink = s.sink ++ [{ pair := pair, ending := .ok }] ∧ CompletedOk s t 0xB#4 1#8 ∧ t.phase = .idle ∧
      t.offer = none := by
  obtain ⟨t, r, run, now, ended⟩ := (offering_startBus .emitting pair s).ends (by simp) rfl ends
  have done := (now.replied r).completes 0xB#4 1#8
  rw [List.append_nil] at done
  exact ⟨_, run.trans (stepReplied_emitting_ok now.phase ended), done⟩

/-- An EMIT whose offer ends without an `ok` responds `BusError` with 0 (42_row_serializer.md R126). -/
theorem emit_fails (p : Params) (s : State) (pair : Pair) (ends : EndsOffer p replies e) (failed : e ≠ .ok) :
    ∃ t, runReplied p replies (startBus .emitting pair s) = .next t ∧ BusFrame s t ∧
      t.sink = s.sink ++ [{ pair := pair, ending := e }] ∧ RaisedError t 0xB#4 .busError 0#8 := by
  obtain ⟨t, r, run, now, ended⟩ := (offering_startBus .emitting pair s).ends (by simp) rfl ends
  have done := (now.replied r).raises e 0xB#4 0#8
  rw [List.append_nil] at done
  exact ⟨_, run.trans (stepReplied_emitting_failed now.phase ended failed), done⟩

/-- The decoder refuses an EMIT of the numbers that no register has (30_encoding.md R69). -/
theorem decodeWith_unlisted_register {leftShift : Bool} {w : Word} (op : opField w = 0xB#4)
    (unlisted : rowField w = 0xD#4 ∨ rowField w = 0xE#4) :
    decodeWith leftShift w = .error .unlistedRegister := by
  have none := (DevReg.ofNumber_eq_none_iff (rowField w)).mpr unlisted
  simp [decodeWith, op, none]

end

/-- Settles O28: the word has its fields, a register outside the set is refused by the decoder, and each ending of the
offer ends the command. -/
theorem emitOffersItsPair : Obligations.EmitOffersItsPair := by
  refine ⟨fun reg value => ?_, fun p s w acc op unlisted => ?_, fun p s reg value wait => ?_⟩
  · obtain ⟨register, operand⟩ := encode_readFrom (.emit reg value)
    exact ⟨encode_matches (.emit reg value), DevReg.ofNumber_eq_some_iff.mpr register, operand⟩
  · rw [← op]
    exact raisesIllegal_of_decode_error acc (decodeWith_unlisted_register op unlisted)
  · refine ⟨_, rfl, rfl, rfl, rfl, rfl, rfl, rfl, rfl, rfl, ⟨rfl, rfl, rfl, rfl, rfl, rfl⟩, fun within => ?_,
      fun within => ?_, fun limit timed => ?_⟩
    · obtain ⟨t, run, frame, sink, done⟩ := emit_delivers p s (commandPair reg value) (endsOffer_okAfter within)
      exact ⟨t, run, sink, frame.fb, done⟩
    · obtain ⟨t, run, frame, sink, raised⟩ :=
        emit_fails p s (commandPair reg value) (endsOffer_errAfter within) (by decide)
      exact ⟨t, run, sink, frame.fb, raised⟩
    · obtain ⟨t, run, frame, sink, raised⟩ :=
        emit_fails p s (commandPair reg value) (endsOffer_timedOut timed) (by decide)
      exact ⟨t, run, sink, frame.fb, raised⟩

/-- Every device register has its symbol (30_encoding.md R73, 42_row_serializer.md R120). -/
theorem mem_registerSymbols (r : DevReg) : r ∈ registerSymbols.map Prod.snd := by
  cases r with
  | row k =>
    revert k
    decide
  | noop | decodeMode | intensity | scanLimit | shutdown | displayTest => decide

/-- Settles O10: the table of symbols is a literal, and its numbers are those the decoder knows. -/
theorem deviceRegisterMap : Obligations.DeviceRegisterMap :=
  ⟨by decide, mem_registerSymbols, DevReg.ofNumber_eq_none_iff,
    fun r => BitVec.toNat_setWidth_of_le (by decide)⟩

end Sys2Proof.Machine
end

section
/-! SUPPORT. The moves of the host agent (60_exceptions.md R161 to R169): what each job makes of a move, which request is
served when, and what the answers to the host's commands bring. -/

namespace Sys2Proof.Machine

section

variable {p : Params} {s : State} {r : Request} {later : List Request} {elapsed : Bool}

/-- The host agent serves requests in two jobs only, between ticks and in the wait of a tick, which is what `resumed`
ranges over (60_exceptions.md R166, R169). -/
theorem hostMove_serves {resume : Option Nat} (job : s.host.job = resumed resume) (queue : s.host.queue = r :: later)
    (responded : Bool) : hostMove p elapsed responded s = serveNext p r later resume s := by
  cases resume <;> simp [hostMove, job, resumed, queue]

theorem hostMove_free (job : s.host.job = .free) (queue : s.host.queue = []) (responded : Bool) :
    hostMove p elapsed responded s = if s.host.mode = .running then goOn (.waiting s.host.period) s else s := by
  simp [hostMove, job, queue]

theorem hostMove_waiting {millis : Nat} (job : s.host.job = .waiting millis) (queue : s.host.queue = [])
    (responded : Bool) : hostMove p elapsed responded s = if elapsed then issue .shrloop .tickShift s else s := by
  simp [hostMove, job, queue]

theorem hostMove_setup {k : Fin 5} (job : s.host.job = .setup k) :
    hostMove p elapsed true s = setupResponse k s := by
  simp [hostMove, job]

theorem hostMove_tickShift (job : s.host.job = .tickShift) :
    hostMove p elapsed true s = issue .flush .tickFlush s := by
  simp [hostMove, job]

theorem hostMove_tickFlush (job : s.host.job = .tickFlush) : hostMove p elapsed true s = tickResponse s := by
  simp [hostMove, job]

theorem hostMove_serving {resume : Option Nat} (job : s.host.job = .serving resume) :
    hostMove p elapsed true s = servedResponse resume s := by
  simp [hostMove, job]

theorem tickResponse_published (answer : s.rsp.status ≠ .busError) :
    tickResponse s = goOn .free { s with shown := s.shown ++ [s.fbQ] } := if_neg answer

theorem tickResponse_failed (answer : s.rsp.status = .busError) :
    tickResponse s = surface .tickBusError (stopLoop s) := if_pos answer

variable {resume : Option Nat}

theorem servedResponse_ok (answer : s.rsp.status = .ok) : servedResponse resume s = goOn (resumed resume) s := by
  rw [servedResponse, answer]

theorem servedResponse_busError (answer : s.rsp.status = .busError) :
    servedResponse resume s = surface (.requestFailed .busError) (stopLoop s) := by
  rw [servedResponse, answer]

/-- The errors of a served command that the block raises by itself leave the loop alone (60_exceptions.md R145). -/
theorem servedResponse_refused (error : s.rsp.status ≠ .ok) (block : s.rsp.status ≠ .busError) :
    servedResponse resume s = surface (.requestFailed s.rsp.status) (goOn (resumed resume) s) := by
  unfold servedResponse
  split
  · contradiction
  · contradiction
  · rfl

/-- The state in which the host agent serves the oldest request of a step: the inputs sampled, `later` left queued. -/
def State.atService (later : List Request) (s : State) : State :=
  { s.sample with host := { s.host with queue := later } }

@[simp] theorem atService_host : (s.atService later).host = { s.host with queue := later } := rfl

/-- The step that serves a request. -/
theorem stepWith_serves (p : Params) (turn : HostTurn s) (job : s.host.job = resumed resume)
    (pending : pendingRequests s = r :: later) : stepWith p s = .next (serve p r resume (s.atService later)) := by
  rw [stepWith_hostTurn p turn, hostMove_serves (s := s.sample) job pending]
  rfl

end

section

variable {p : Params} {s t : State}

/-- A step without a reset that is no move of the host agent only queues the request that arrives. -/
theorem StepOutcome.host_of_blockTurn (outcome : StepOutcome p s t) (low : s.inp.rst = false) (block : ¬ HostTurn s) :
    t.host = s.host.enqueue s.inp.request := by
  cases outcome with
  | reset high => simp [low] at high
  | hostMoved turn => exact absurd turn block
  | wait | nextRow | busDone | busFailed | completed | raised | startFlush | startEmit => rfl

/-- A command in progress stays in progress or is answered with its opcode. -/
theorem StepOutcome.progress_of_busy {op : Nibble} (outcome : StepOutcome p s t) (low : s.inp.rst = false)
    (progress : s.phase.opcode = some op) :
    t.phase.opcode = some op ∨ (t.phase = .idle ∧ t.rspValid = true ∧ t.rsp.op = op) := by
  have busy := Phase.ne_idle_of_opcode progress
  cases outcome with
  | reset high => simp [low] at high
  | wait => exact .inl progress
  | nextRow _ k n flushing =>
    rw [flushing] at progress
    exact .inl progress
  | busDone _ op' progress' | busFailed _ op' progress' =>
    exact .inr ⟨rfl, rfl, Option.some.inj (progress'.symm.trans progress)⟩
  | completed w acc | raised w acc | startFlush w acc | startEmit w acc => exact absurd acc.idle busy
  | hostMoved turn => exact absurd turn.idle busy

end

end Sys2Proof.Machine
end

section
/-! SUPPORT. The invariant of the host agent: what it says in each job, and that the block's turns and the host's moves keep
it (60_exceptions.md R162 to R169). -/

namespace Sys2Proof.Machine

variable {p : Params} {s t : State} {w : Word}

/-- The part of the invariant that speaks of the scroll loop alone (60_exceptions.md R162, R163). -/
def LoopInv (p : Params) (h : HostAgent) : Prop :=
  (h.mode = .running → h.setup = .done) ∧ 1 ≤ h.period ∧
    (h.period = Config.periodDefault ∨ h.period ≤ p.periodMax)

theorem HostInv.loop (inv : HostInv p s) : LoopInv p s.host := inv.2

/-- Between ticks and in a wait no word is outstanding. -/
theorem jobInv_resumed_iff {resume : Option Nat} (job : s.host.job = resumed resume) :
    JobInv s ↔ s.cmd = none ∧ s.phase = .idle ∧ (resume ≠ none → s.host.mode = .running) := by
  cases resume <;> simp [JobInv, job, resumed]

theorem jobInv_setup_iff {k : Fin 5} (job : s.host.job = .setup k) :
    JobInv s ↔ s.host.setup = .pending ∧ s.host.mode = .stopped ∧ Outstanding s (encode (setupCommand k)) := by
  simp [JobInv, job]

theorem jobInv_tickShift_iff (job : s.host.job = .tickShift) :
    JobInv s ↔ s.host.mode = .running ∧ Outstanding s (encode .shrloop) := by
  simp [JobInv, job, encode]

theorem jobInv_tickFlush_iff (job : s.host.job = .tickFlush) :
    JobInv s ↔ s.host.mode = .running ∧ Outstanding s (encode .flush) := by
  simp [JobInv, job, encode]

theorem jobInv_serving_iff {resume : Option Nat} (job : s.host.job = .serving resume) :
    JobInv s ↔ (resume ≠ none → s.host.mode = .running) ∧ ∃ w, Outstanding s w := by
  simp [JobInv, job]

theorem hostInv_of_resumed {resume : Option Nat} (job : s.host.job = resumed resume) (port : s.cmd = none)
    (idle : s.phase = .idle) (wait : resume ≠ none → s.host.mode = .running) (loop : LoopInv p s.host) :
    HostInv p s :=
  ⟨(jobInv_resumed_iff job).mpr ⟨port, idle, wait⟩, loop⟩

theorem hostInv_of_free (job : s.host.job = .free) (port : s.cmd = none) (idle : s.phase = .idle)
    (loop : LoopInv p s.host) : HostInv p s :=
  hostInv_of_resumed (resume := none) job port idle (absurd rfl) loop

/-- A loop that is Stopped meets its invariant with any setup. -/
theorem LoopInv.of_stopped {h h' : HostAgent} (loop : LoopInv p h) (mode : h'.mode = .stopped)
    (period : h'.period = h.period) : LoopInv p h' := by
  obtain ⟨-, bounds⟩ := loop
  rw [← period] at bounds
  exact ⟨by simp [mode], bounds⟩

theorem LoopInv.mode_stopped {h : HostAgent} (loop : LoopInv p h) (undone : h.setup ≠ .done) : h.mode = .stopped := by
  cases mode : h.mode with
  | stopped => rfl
  | running => exact absurd (loop.1 mode) undone

theorem outstanding_issueWord (w : Word) (job : Job) (idle : s.phase = .idle) : Outstanding (issueWord w job s) w :=
  .inl ⟨idle, rfl⟩

/-- The host agent moves only while it holds no word on the command port. -/
theorem HostTurn.port_free (turn : HostTurn s) : s.cmd = none := turn.2.2

/-- When the host agent moves, the word outstanding has been answered. -/
theorem Outstanding.responded (out : Outstanding s w) (turn : HostTurn s) : s.rspValid = true := by
  obtain ⟨-, held⟩ | ⟨-, progress | ⟨-, valid, -⟩⟩ := out
  · simp [turn.port_free] at held
  · exact absurd turn.idle (Phase.ne_idle_of_opcode progress)
  · exact valid

/-- A turn of the block brings the word outstanding one step on: from the port into progress, from there to its response, or
to its response at once (40_pixel_buffer.md R80). -/
theorem Outstanding.kept (out : Outstanding s w) (low : s.inp.rst = false) (block : ¬ HostTurn s)
    (step : stepWith p s = .next t) : Outstanding t w := by
  have outcome := StepOutcome.of_stepWith step
  obtain ⟨idle, held⟩ | ⟨port, progress | ⟨idle, -⟩⟩ := out
  · obtain ⟨u, answered, port, valid, op, progress, -⟩ := acceptedWordIsAnswered p s w ⟨low, idle, held⟩
    obtain rfl : u = t := by simpa [answered] using step
    by_cases done : u.phase = .idle
    · exact .inr ⟨port, .inr ⟨done, valid.mpr done, op done⟩⟩
    · exact .inr ⟨port, .inl (progress done).1⟩
  · obtain ⟨cmd, -⟩ := outcome.cmd_fb_of_busy low (Phase.ne_idle_of_opcode progress)
    exact .inr ⟨cmd.trans port, outcome.progress_of_busy low progress⟩
  · exact absurd ⟨low, idle, port⟩ block

theorem blockTurn_keeps_hostInv (inv : HostInv p s) (low : s.inp.rst = false) (block : ¬ HostTurn s)
    (step : stepWith p s = .next t) : HostInv p t := by
  have host := (StepOutcome.of_stepWith step).host_of_blockTurn low block
  have same_job : t.host.job = s.host.job := by rw [host]; rfl
  have same_mode : t.host.mode = s.host.mode := by rw [host]; rfl
  have same_setup : t.host.setup = s.host.setup := by rw [host]; rfl
  obtain ⟨jobInv, loop⟩ := inv
  refine ⟨?_, by rw [host]; exact loop⟩
  have not_resumed {resume : Option Nat} (job : s.host.job = resumed resume) : False := by
    obtain ⟨port, idle, -⟩ := (jobInv_resumed_iff job).mp jobInv
    exact block ⟨low, idle, port⟩
  cases job : s.host.job with
  | free => exact (not_resumed (resume := none) job).elim
  | waiting millis => exact (not_resumed (resume := some millis) job).elim
  | setup k =>
    obtain ⟨setup, mode, out⟩ := (jobInv_setup_iff job).mp jobInv
    exact (jobInv_setup_iff (same_job.trans job)).mpr
      ⟨same_setup.trans setup, same_mode.trans mode, out.kept low block step⟩
  | tickShift =>
    obtain ⟨mode, out⟩ := (jobInv_tickShift_iff job).mp jobInv
    exact (jobInv_tickShift_iff (same_job.trans job)).mpr ⟨same_mode.trans mode, out.kept low block step⟩
  | tickFlush =>
    obtain ⟨mode, out⟩ := (jobInv_tickFlush_iff job).mp jobInv
    exact (jobInv_tickFlush_iff (same_job.trans job)).mpr ⟨same_mode.trans mode, out.kept low block step⟩
  | serving resume =>
    obtain ⟨wait, w, out⟩ := (jobInv_serving_iff job).mp jobInv
    exact (jobInv_serving_iff (same_job.trans job)).mpr
      ⟨fun waits => same_mode.trans (wait waits), w, out.kept low block step⟩

section

variable {resume : Option Nat} {elapsed : Bool} (port : s.cmd = none) (idle : s.phase = .idle)
  (loop : LoopInv p s.host)

include idle loop

theorem issueWord_serving_keeps_hostInv (wait : resume ≠ none → s.host.mode = .running) (w : Word) :
    HostInv p (issueWord w (.serving resume) s) :=
  ⟨(jobInv_serving_iff rfl).mpr ⟨wait, w, outstanding_issueWord w _ idle⟩, loop⟩

/-- The setup goes on to EMIT `k`. -/
theorem issue_setupCommand_keeps_hostInv (pending : s.host.setup = .pending) (k : Fin 5) :
    HostInv p (issue (setupCommand k) (.setup k) s) :=
  have stopped := loop.mode_stopped (by simp [pending])
  ⟨(jobInv_setup_iff rfl).mpr ⟨pending, stopped, outstanding_issueWord _ _ idle⟩, loop⟩

include port

theorem serve_keeps_hostInv (r : Request) (job : s.host.job = resumed resume)
    (wait : resume ≠ none → s.host.mode = .running) : HostInv p (serve p r resume s) := by
  have unchanged := hostInv_of_resumed job port idle wait loop
  obtain ⟨ran, period⟩ := loop
  cases r with
  | start =>
    rw [serve]
    split
    case isTrue enters => exact hostInv_of_free rfl port idle ⟨fun _ => enters.2, period⟩
    case isFalse => exact unchanged
  | stop => exact hostInv_of_free rfl port idle (LoopInv.of_stopped ⟨ran, period⟩ rfl rfl)
  | setSpeed millis =>
    rw [serve]
    split
    case isTrue legal =>
      obtain ⟨positive, bounded⟩ : 1 ≤ millis ∧ millis ≤ p.periodMax := by simpa [legalPeriod] using legal
      exact hostInv_of_resumed job port idle wait ⟨ran, positive, .inr bounded⟩
    case isFalse => exact unchanged
  | togglePixel row col => exact issueWord_serving_keeps_hostInv idle ⟨ran, period⟩ wait _
  | beginSetup =>
    rw [serve]
    split
    case isTrue begins => exact issue_setupCommand_keeps_hostInv idle ⟨ran, period⟩ begins.1 0
    case isFalse => exact unchanged
  | command w => exact issueWord_serving_keeps_hostInv idle ⟨ran, period⟩ wait w

/-- A move between ticks or in a wait. -/
theorem hostMove_resumed_keeps_hostInv (job : s.host.job = resumed resume)
    (wait : resume ≠ none → s.host.mode = .running) (responded : Bool) :
    HostInv p (hostMove p elapsed responded s) := by
  have unchanged := hostInv_of_resumed job port idle wait loop
  cases queue : s.host.queue with
  | cons r later =>
    rw [hostMove_serves job queue]
    exact serve_keeps_hostInv (s := { s with host := { s.host with queue := later } }) port idle loop r job wait
  | nil =>
    cases resume with
    | none =>
      rw [hostMove_free job queue]
      split
      case isTrue running =>
        exact hostInv_of_resumed (resume := some s.host.period) rfl port idle (fun _ => running) loop
      case isFalse => exact unchanged
    | some millis =>
      have running := wait (Option.some_ne_none millis)
      rw [hostMove_waiting job queue]
      split
      · exact ⟨(jobInv_tickShift_iff rfl).mpr ⟨running, outstanding_issueWord _ _ idle⟩, loop⟩
      · exact unchanged

theorem setupResponse_keeps_hostInv (pending : s.host.setup = .pending) (k : Fin 5) :
    HostInv p (setupResponse k s) := by
  have stopped := loop.mode_stopped (by simp [pending])
  unfold setupResponse
  split
  · split
    · exact hostInv_of_free rfl port idle ⟨fun _ => rfl, loop.2⟩
    · exact issue_setupCommand_keeps_hostInv idle loop pending (k + 1)
  · exact hostInv_of_free rfl port idle (loop.of_stopped stopped rfl)

theorem tickResponse_keeps_hostInv : HostInv p (tickResponse s) := by
  by_cases answer : s.rsp.status = .busError
  · rw [tickResponse_failed answer]
    exact hostInv_of_free rfl port idle (loop.of_stopped rfl rfl)
  · rw [tickResponse_published answer]
    exact hostInv_of_free rfl port idle loop

theorem servedResponse_keeps_hostInv (wait : resume ≠ none → s.host.mode = .running) :
    HostInv p (servedResponse resume s) := by
  by_cases failed : s.rsp.status = .busError
  · rw [servedResponse_busError failed]
    exact hostInv_of_free rfl port idle (loop.of_stopped rfl rfl)
  · by_cases answer : s.rsp.status = .ok
    · rw [servedResponse_ok answer]
      exact hostInv_of_resumed rfl port idle wait loop
    · rw [servedResponse_refused answer failed]
      exact hostInv_of_resumed rfl port idle wait loop

end

theorem hostMove_keeps_hostInv (inv : HostInv p s) (turn : HostTurn s) (elapsed : Bool) :
    HostInv p (hostMove p elapsed s.rspValid s.sample) := by
  have idle := turn.idle
  have port := turn.port_free
  obtain ⟨jobInv, loop⟩ := inv
  cases job : s.host.job with
  | free =>
    exact hostMove_resumed_keeps_hostInv (s := s.sample) (resume := none) port idle loop job (absurd rfl) _
  | waiting millis =>
    obtain ⟨-, -, wait⟩ := (jobInv_resumed_iff (resume := some millis) job).mp jobInv
    exact hostMove_resumed_keeps_hostInv (s := s.sample) (resume := some millis) port idle loop job wait _
  | setup k =>
    obtain ⟨pending, -, out⟩ := (jobInv_setup_iff job).mp jobInv
    rw [out.responded turn, hostMove_setup (s := s.sample) job]
    exact setupResponse_keeps_hostInv (s := s.sample) port idle loop pending k
  | tickShift =>
    obtain ⟨mode, out⟩ := (jobInv_tickShift_iff job).mp jobInv
    rw [out.responded turn, hostMove_tickShift (s := s.sample) job]
    exact ⟨(jobInv_tickFlush_iff rfl).mpr ⟨mode, outstanding_issueWord _ _ idle⟩, loop⟩
  | tickFlush =>
    obtain ⟨-, out⟩ := (jobInv_tickFlush_iff job).mp jobInv
    rw [out.responded turn, hostMove_tickFlush (s := s.sample) job]
    exact tickResponse_keeps_hostInv (s := s.sample) port idle loop
  | serving resume =>
    obtain ⟨wait, w, out⟩ := (jobInv_serving_iff job).mp jobInv
    rw [out.responded turn, hostMove_serving (s := s.sample) job]
    exact servedResponse_keeps_hostInv (s := s.sample) port idle loop wait

/-- A reset brings the host agent and the command port to their start values (log entry 10). -/
theorem hostInv_resetBlock (p : Params) (received : Bool) (s : State) : HostInv p (resetBlock received s) :=
  hostInv_of_free rfl rfl rfl (hostInv_reset p).loop

/-- A step is a reset, a move of the host agent, or a turn of the block (log entry 15). -/
theorem stepWith_agents (step : stepWith p s = .next t) :
    t = resetBlock (Config.freeReceived s.draws) s.sample ∨
      (HostTurn s ∧ t = hostMove p s.inp.elapsed s.rspValid s.sample) ∨ (s.inp.rst = false ∧ ¬ HostTurn s) := by
  by_cases turn : HostTurn s
  · rw [stepWith_hostTurn p turn] at step
    exact .inr (.inl ⟨turn, (Host.Outcome.next.inj step).symm⟩)
  · cases StepOutcome.of_stepWith step with
    | reset => exact .inl rfl
    | hostMoved turn' => exact absurd turn' turn
    | wait low | nextRow low | busDone low | busFailed low => exact .inr (.inr ⟨low, turn⟩)
    | completed w acc | raised w acc | startFlush w acc | startEmit w acc => exact .inr (.inr ⟨acc.rst_low, turn⟩)

/-- What a step without a reset makes of the host agent: its move, or the arriving request queued. -/
theorem stepWith_host (low : s.inp.rst = false) (step : stepWith p s = .next t) :
    (HostTurn s ∧ t = hostMove p s.inp.elapsed s.rspValid s.sample) ∨ t.host = s.host.enqueue s.inp.request := by
  by_cases turn : HostTurn s
  · rw [stepWith_hostTurn p turn] at step
    exact .inl ⟨turn, (Host.Outcome.next.inj step).symm⟩
  · exact .inr ((StepOutcome.of_stepWith step).host_of_blockTurn low turn)

/-- Settles O45: a reset establishes the invariant, a move of the host and a turn of the block keep it. -/
theorem hostInvariantKept : Obligations.HostInvariantKept := by
  unfold Obligations.HostInvariantKept
  intro p s t inv step
  obtain rfl | ⟨turn, rfl⟩ | ⟨low, block⟩ := stepWith_agents step
  · exact hostInv_resetBlock p _ _
  · exact hostMove_keeps_hostInv inv turn _
  · exact blockTurn_keeps_hostInv inv low block step

end Sys2Proof.Machine
end

section
/-! SUPPORT. The errors of the block (60_exceptions.md R140 to R146): which words are no command, what raising writes, and
that nothing stops the machine. -/

namespace Sys2Proof.Machine

/-- Every opcode the block has is the opcode of a command: the opcode followed by zeros decodes (30_encoding.md R67). -/
theorem exists_command_of_opcode {leftShift : Bool} {op : Nibble} (low : op.toNat < 0xC)
    (present : ¬ ((op = 0x8#4 ∨ op = 0x9#4) ∧ leftShift = false)) :
    ∃ row : Instr, row.wellFormed leftShift = true ∧ row.opcode = op := by
  have decodes : ∀ (leftShift : Bool) (op : Nibble), op.toNat < 0xC →
      ¬ ((op = 0x8#4 ∨ op = 0x9#4) ∧ leftShift = false) →
      (decodeWith leftShift (op ++ 0#12)).toOption.isSome = true := by decide
  obtain ⟨opcode, -⟩ := formatZ_eq_iff.mp (rfl : op ++ 0#12 = op ++ 0#12)
  cases decoded : decodeWith leftShift (op ++ 0#12) with
  | error e =>
    have := decodes leftShift op low present
    simp [decoded, Except.toOption] at this
  | ok row =>
    obtain ⟨wellFormed, -⟩ := decodeWith_eq_ok_iff.mp decoded
    exact ⟨row, wellFormed, (decode_opcode decoded).trans opcode⟩

/-- Without a cause of `IllegalCommand` a word decodes, and not to the reserved row (60_exceptions.md R141). -/
theorem decodes_of_not_noCommand {leftShift : Bool} {w : Word} (command : ¬ NoCommand leftShift w) :
    ∃ i, decodeWith leftShift w = .ok i ∧ ∀ low, i ≠ .reserved low := by
  obtain ⟨not_high, present, not_bits, listed⟩ : ¬ 0xC ≤ (opField w).toNat ∧
      ¬ ((opField w = 0x8#4 ∨ opField w = 0x9#4) ∧ leftShift = false) ∧
      ¬ ((opField w).toNat < 0xC ∧ w &&& zeroBits (opField w) ≠ 0#16) ∧
      ¬ (opField w = 0xB#4 ∧ (rowField w = 0xD#4 ∨ rowField w = 0xE#4)) := by
    simpa only [NoCommand, not_or] using command
  have low : (opField w).toNat < 0xC := Nat.not_le.mp not_high
  have zero : w &&& zeroBits (opField w) = 0#16 := by
    by_contra bits
    exact not_bits ⟨low, bits⟩
  obtain ⟨row, wellFormed, op⟩ := exists_command_of_opcode low present
  have decodes := decodes_iff_of_opcode wellFormed (op ▸ low) op.symm
  rw [op] at decodes
  obtain ⟨i, decoded⟩ := decodes.mpr ⟨zero, fun emit => not_or.mp fun unlisted => listed ⟨emit, unlisted⟩⟩
  refine ⟨i, decoded, ?_⟩
  rintro bits rfl
  exact not_high (decode_opcode decoded ▸ Instr.reserved_opcode_ge bits)

/-- Settles O6: each cause of `IllegalCommand` raises in its own way, and a word without one has an opcode of the block and
the fields of its format. -/
theorem wordsThatAreNoCommand : Obligations.WordsThatAreNoCommand := by
  refine ⟨fun p s w acc cause => ?_, fun _ _ => decodes_of_not_noCommand⟩
  obtain reserved | ⟨left, absent⟩ | ⟨low, bits⟩ | ⟨emit, unlisted⟩ := cause
  · exact raisesIllegal_of_reserved_opcode acc reserved
  · exact refusedWithoutLeftShift left p s w absent acc rfl
  · exact refusesBits_zeroBits low p s w acc rfl bits
  · exact raisesIllegal_of_decode_error acc (decodeWith_unlisted_register emit unlisted)

/-- A command that answers at once with an error writes no cell (60_exceptions.md R143). -/
theorem exec_fb_of_error {i : Instr} {s t : State} (h : exec i s = .next t) (responded : t.rspValid = true)
    (error : t.rsp.status ≠ .ok) : t.fb = s.fb := by
  obtain ⟨fb, data, done⟩ | ⟨e, raised⟩ | ⟨-, started⟩ | ⟨reg, value, -, started⟩ := exec_cases i s
  · obtain rfl := Host.Outcome.next.inj (done.symm.trans h)
    exact absurd rfl error
  · obtain rfl := Host.Outcome.next.inj (raised.symm.trans h)
    rfl
  · obtain rfl := Host.Outcome.next.inj (started.symm.trans h)
    simp at responded
  · obtain rfl := Host.Outcome.next.inj (started.symm.trans h)
    simp at responded

/-- Settles O30: `raise` is one record update, and a command answers with an error only through it. -/
theorem raiseEndsTheCommand : Obligations.RaiseEndsTheCommand :=
  ⟨fun _ _ _ => ⟨⟨rfl, rfl, rfl, rfl, rfl⟩, rfl, rfl, rfl, ⟨rfl, rfl, rfl, rfl, rfl, rfl⟩⟩,
    fun _ _ _ => exec_fb_of_error⟩

/-- Settles O35: every step is one of the ten outcomes, and every command completes, raises or starts on the bus. -/
theorem everyStepAnswersANextState : Obligations.EveryStepAnswersANextState := by
  refine ⟨fun p s => ?_, fun i s => ?_⟩
  · obtain ⟨t, step, -⟩ := stepWith_outcome p s
    exact ⟨t, step⟩
  · obtain ⟨_, _, done⟩ | ⟨_, raised⟩ | ⟨-, started⟩ | ⟨_, _, -, started⟩ := exec_cases i s
    · exact ⟨_, done⟩
    · exact ⟨_, raised⟩
    · exact ⟨_, started⟩
    · exact ⟨_, started⟩

/-- Settles O2: the host agent's fields at reset. -/
theorem hostStartsStopped : Obligations.HostStartsStopped := ⟨rfl, rfl, rfl, rfl⟩

end Sys2Proof.Machine
end

section
/-! SUPPORT. The requests to the host agent, each in the step that serves it (60_exceptions.md R163 to R169). -/

namespace Sys2Proof.Machine

section

variable {p : Params} {s : State} {resume : Option Nat}

/-- A start changes nothing of a loop that runs (60_exceptions.md R165). -/
theorem serve_start_running (running : s.host.mode = .running) : serve p .start resume s = s := by
  simp [serve, running]

/-- A start enters Running exactly after a successful setup (60_exceptions.md R163). -/
theorem serve_start_stopped (stopped : s.host.mode = .stopped) :
    serve p .start resume s =
      if s.host.setup = .done then { s with host := { s.host with mode := .running, job := .free } } else s := by
  simp [serve, stopped]

theorem serve_stop : serve p .stop resume s = stopLoop s := rfl

/-- A legal speed change writes the period only (60_exceptions.md R168). -/
theorem serve_setSpeed {millis : Nat} (positive : 1 ≤ millis) (bounded : millis ≤ p.periodMax) :
    serve p (.setSpeed millis) resume s = { s with host := { s.host with period := millis } } := by
  simp [serve, legalPeriod, positive, bounded]

/-- Between ticks and in a wait the job is one that serves requests. -/
theorem exists_resumed_of_job {job : Job} (serves : job = .free ∨ ∃ millis, job = .waiting millis) :
    ∃ resume, job = resumed resume := by
  obtain rfl | ⟨millis, rfl⟩ := serves
  · exact ⟨none, rfl⟩
  · exact ⟨some millis, rfl⟩

end

/-- Settles O52: a start served while Running is the identity, and a stop writes what a Stopped, free host holds. -/
theorem startAndStopAreIdempotent : Obligations.StartAndStopAreIdempotent := by
  refine ⟨fun p s later turn job running pending => ?_, fun p s later turn job stopped pending => ?_⟩
  · obtain ⟨resume, job⟩ := exists_resumed_of_job job
    refine ⟨_, stepWith_serves p turn job pending, ?_⟩
    rw [serve_start_running (s := s.atService later) running]
    exact ⟨rfl, turn.port_free⟩
  · refine ⟨_, stepWith_serves p (resume := none) turn job pending, ?_, turn.port_free⟩
    simp [serve_stop, job, stopped]

/-- Settles O53: a start served while Stopped asks the setup. -/
theorem startNeedsTheSetup : Obligations.StartNeedsTheSetup := by
  unfold Obligations.StartNeedsTheSetup
  intro p s later turn job stopped pending
  have port := turn.port_free
  refine ⟨_, stepWith_serves p (resume := none) turn job pending, ?_⟩
  rw [serve_start_stopped (s := s.atService later) stopped]
  split
  case isTrue done => exact ⟨iff_of_true rfl done, rfl, port⟩
  case isFalse undone => exact ⟨iff_of_false (by simp [stopped]) undone, rfl, port⟩

/-- Settles O54: a legal speed change is one write, and a new tick takes the period into its wait. -/
theorem speedChangeTakesTheNextTick : Obligations.SpeedChangeTakesTheNextTick := by
  refine ⟨fun p s millis later turn job positive bounded pending => ?_, fun p s turn job running pending => ?_⟩
  · obtain ⟨resume, job⟩ := exists_resumed_of_job job
    refine ⟨_, stepWith_serves p turn job pending, ?_⟩
    rw [serve_setSpeed positive bounded]
    exact ⟨rfl, turn.port_free⟩
  · refine ⟨_, stepWith_hostTurn p turn, ?_⟩
    rw [hostMove_free (s := s.sample) job pending, if_pos (show s.sample.host.mode = .running from running)]
    exact ⟨rfl, turn.port_free⟩

/-- Settles O55: a pixel request puts its TOGGLE on the port, and its response falls under one of three statuses. -/
theorem pixelRequestIssuesToggle : Obligations.PixelRequestIssuesToggle := by
  refine ⟨fun p s row col later turn job pending => ?_, fun p s millis row col later turn job pending => ?_,
    fun p s resume turn job responded => ?_⟩
  · exact ⟨_, stepWith_serves p (resume := none) turn job pending, rfl, rfl, rfl, rfl⟩
  · exact ⟨_, stepWith_serves p (resume := some millis) turn job pending, rfl, rfl, rfl, rfl⟩
  · refine ⟨_, stepWith_hostTurn p turn, ?_⟩
    rw [responded, hostMove_serving (s := s.sample) job]
    by_cases failed : s.rsp.status = .busError
    · rw [servedResponse_busError (s := s.sample) failed]
      simp [pendingRequests, turn.port_free, failed]
    · by_cases answer : s.rsp.status = .ok
      · rw [servedResponse_ok (s := s.sample) answer]
        simp +contextual [pendingRequests, turn.port_free, answer, resumed]
      · rw [servedResponse_refused (s := s.sample) answer failed]
        simp +contextual [pendingRequests, turn.port_free, answer, failed, resumed]

end Sys2Proof.Machine
end

section
/-! SUPPORT. What a failed setup and a tick in progress keep in every step (60_exceptions.md R148, R164, R166). -/

namespace Sys2Proof.Machine

variable {p : Params} {s t : State}

theorem serve_keeps_setup (r : Request) (resume : Option Nat) : (serve p r resume s).host.setup = s.host.setup := by
  cases r with
  | start | setSpeed | beginSetup => rw [serve]; split <;> rfl
  | stop | togglePixel | command => rfl

theorem servedResponse_keeps_setup (resume : Option Nat) : (servedResponse resume s).host.setup = s.host.setup := by
  unfold servedResponse
  split <;> rfl

/-- A host agent whose setup failed is between ticks, or has a request's command outstanding that came in no wait. -/
theorem HostInv.job_of_failed (inv : HostInv p s) (failed : s.host.setup = .failed) :
    s.host.job = .free ∨ s.host.job = .serving none := by
  have stopped := inv.loop.mode_stopped (by simp [failed])
  obtain ⟨jobInv, -⟩ := inv
  cases job : s.host.job with
  | free => exact .inl rfl
  | waiting | tickShift | tickFlush => simp [JobInv, job, stopped] at jobInv
  | setup k => simp [JobInv, job, failed] at jobInv
  | serving resume =>
    cases resume with
    | none => exact .inr rfl
    | some millis => simp [JobInv, job, stopped] at jobInv

/-- Without a reset a failed setup stays failed (60_exceptions.md R148). -/
theorem stepWith_keeps_failed (inv : HostInv p s) (failed : s.host.setup = .failed) (low : s.inp.rst = false)
    (step : stepWith p s = .next t) : t.host.setup = .failed := by
  obtain ⟨turn, rfl⟩ | host := stepWith_host low step
  · obtain job | job := inv.job_of_failed failed
    · cases queue : pendingRequests s with
      | cons r later =>
        rw [hostMove_serves (s := s.sample) (resume := none) job queue]
        exact (serve_keeps_setup r none).trans failed
      | nil =>
        rw [hostMove_free (s := s.sample) job queue]
        split <;> exact failed
    · obtain ⟨jobInv, -⟩ := inv
      obtain ⟨-, w, out⟩ := (jobInv_serving_iff job).mp jobInv
      rw [out.responded turn, hostMove_serving (s := s.sample) job]
      exact (servedResponse_keeps_setup none).trans failed
  · rw [host]
    exact failed

/-- Settles O50: a failed setup stays failed, and the invariant of the next state leaves it no tick. -/
theorem failedSetupNeverAnimates : Obligations.FailedSetupNeverAnimates := by
  unfold Obligations.FailedSetupNeverAnimates
  intro p s t inv failed low step
  have failed := stepWith_keeps_failed inv failed low step
  have inv := hostInvariantKept p s t inv step
  refine ⟨failed, inv.loop.mode_stopped (by simp [failed]), ?_⟩
  obtain job | job := inv.job_of_failed failed <;> simp [job]

/-- The response to its FLUSH ends a tick, whatever the status (60_exceptions.md R164, R167). -/
theorem tickResponse_job : (tickResponse s).host.job = .free := by
  unfold tickResponse
  split <;> rfl

/-- Settles O51: a stop is served in the wait and between ticks, and in the body of a tick the host moves only on a
response. -/
theorem stopNeverSplitsATick : Obligations.StopNeverSplitsATick := by
  refine ⟨fun p s millis later turn job pending => ?_, fun p s later turn job running pending => ?_,
    fun p s t inv low job step => ?_, fun p s t inv low job step unfinished => ?_⟩
  · exact ⟨_, stepWith_serves p (resume := some millis) turn job pending, rfl, rfl, turn.port_free, rfl⟩
  · refine ⟨_, stepWith_serves p (resume := none) turn job pending, ?_, turn.port_free, rfl⟩
    simp [serve_stop, job]
  · obtain ⟨jobInv, -⟩ := inv
    obtain ⟨running, out⟩ := (jobInv_tickShift_iff job).mp jobInv
    obtain ⟨turn, rfl⟩ | host := stepWith_host low step
    · rw [out.responded turn, hostMove_tickShift (s := s.sample) job]
      exact ⟨running, rfl, .inr ⟨rfl, rfl⟩⟩
    · rw [host]
      exact ⟨running, rfl, .inl job⟩
  · obtain ⟨jobInv, -⟩ := inv
    obtain ⟨running, out⟩ := (jobInv_tickFlush_iff job).mp jobInv
    obtain ⟨turn, rfl⟩ | host := stepWith_host low step
    · rw [out.responded turn, hostMove_tickFlush (s := s.sample) job] at unfinished
      exact absurd tickResponse_job unfinished
    · rw [host]
      exact ⟨running, rfl, job⟩

end Sys2Proof.Machine
end

section
/-! SUPPORT. A whole tick under given replies of the Bus Sink (60_exceptions.md R164, R167): from the end of the wait through
SHRLOOP to the FLUSH on the bus, and from the FLUSH's response to the end of the tick. -/

namespace Sys2Proof.Machine

section

variable {p : Params} {r : SinkReply} {s : State} {i : Instr}

/-- A step under a reply in which the host agent moves. -/
theorem stepReplied_hostTurn (idle : s.phase = .idle) (port : s.cmd = none) :
    stepReplied p r s = .next (hostMove p s.inp.elapsed s.rspValid (s.replied r)) :=
  stepWith_hostTurn p (s := { s with inp := r.onPorts s.inp }) ⟨rfl, idle, port⟩

/-- A step under a reply that accepts the word of a command of the block. -/
theorem stepReplied_encode (present : i.wellFormed p.leftShiftPresent = true) (idle : s.phase = .idle)
    (port : s.cmd = some (encode i)) : stepReplied p r s = exec i (s.replied r).takeCommand := by
  obtain ⟨runs, -⟩ := stepRunsTheDecodedCommand
  exact runs p { s with inp := r.onPorts s.inp } (encode i) i ⟨rfl, idle, port⟩
    ((decodeInvertsEncode _ _ i).mpr ⟨present, rfl⟩)

end

/-- The tick whose wait ended in `s` has come to `u`, with the block idle: what the tick has made of the buffer, the word on
the port, and the pairs sent; nothing is published yet, and of the host agent only job and queue differ. -/
structure TickAt (s : State) (job : Job) (fb : FrameBuffer) (port : Option Word) (sent : List SinkEvent) (u : State) :
    Prop where
  idle : u.phase = .idle
  fb : u.fb = fb
  port : u.cmd = port
  sink : u.sink = s.sink ++ sent
  shown : u.shown = s.shown
  host : ∃ queue, u.host = { s.host with job := job, queue := queue }

section

variable {p : Params} {s u v : State} {job : Job} {fb : FrameBuffer} {port : Option Word} {sent : List SinkEvent}

theorem TickAt.replied (now : TickAt s job fb port sent u) (r : SinkReply) : TickAt s job fb port sent (u.replied r) := by
  obtain ⟨queue, host⟩ := now.host
  have arrived : (u.replied r).host = { s.host with job := job, queue := queue ++ u.inp.request.toList } := by
    simp [State.replied, host, HostAgent.enqueue, SinkReply.onPorts]
  exact { now with host := ⟨_, arrived⟩ }

theorem TickAt.job_eq (now : TickAt s job fb port sent u) : u.host.job = job := by
  obtain ⟨queue, host⟩ := now.host
  rw [host]

/-- The host agent puts the next word of the tick on the port. -/
theorem TickAt.issue (now : TickAt s job fb port sent u) (i : Instr) (next : Job) :
    TickAt s next fb (some (encode i)) sent (issue i next u) := by
  obtain ⟨queue, host⟩ := now.host
  exact { now with port := rfl, host := ⟨queue, by simp [Machine.issue, host]⟩ }

/-- At the end of the wait SHRLOOP is issued (60_exceptions.md R164). -/
theorem tick_begins {millis : Nat} (turn : HostTurn s) (waiting : s.host.job = .waiting millis)
    (pending : pendingRequests s = []) (elapsed : s.inp.elapsed = true) :
    ∃ t, stepReplied p .notYet s = .next t ∧ TickAt s .tickShift s.fb (some (encode .shrloop)) [] t := by
  have now : TickAt s s.host.job s.fb none [] s :=
    ⟨turn.idle, rfl, turn.port_free, (List.append_nil _).symm, rfl, _, rfl⟩
  refine ⟨_, ?_, (now.replied .notYet).issue .shrloop .tickShift⟩
  rw [stepReplied_hostTurn turn.idle turn.port_free, elapsed,
    hostMove_waiting (s := s.replied .notYet) waiting pending, if_pos rfl]

theorem TickAt.rotates (now : TickAt s .tickShift fb (some (encode .shrloop)) sent u) :
    ∃ t, stepReplied p .notYet u = .next t ∧ TickAt s .tickShift (mapRows ror8 fb) none sent t ∧ t.rspValid = true := by
  have after := now.replied .notYet
  refine ⟨_, stepReplied_encode (i := .shrloop) rfl now.idle now.port, { after with fb := ?_, port := rfl }, rfl⟩
  exact congrArg (mapRows ror8) after.fb

/-- The response to SHRLOOP brings FLUSH, with nothing between (60_exceptions.md R164). -/
theorem TickAt.goes_on (now : TickAt s .tickShift fb none sent u) (responded : u.rspValid = true) :
    ∃ t, stepReplied p .notYet u = .next t ∧ TickAt s .tickFlush fb (some (encode .flush)) sent t := by
  have after := now.replied .notYet
  refine ⟨_, ?_, after.issue .flush .tickFlush⟩
  rw [stepReplied_hostTurn now.idle now.port, responded, hostMove_tickShift after.job_eq]

theorem TickAt.starts_flush (now : TickAt s .tickFlush fb (some (encode .flush)) sent u) :
    ∃ v, stepReplied p .notYet u = .next (startBus (.flushing 0 0) (rowPair v.fb 0) v) ∧
      TickAt s .tickFlush fb none sent v :=
  ⟨_, stepReplied_encode (i := .flush) rfl now.idle now.port, { now.replied .notYet with port := rfl }⟩

/-- From the end of the wait four steps bring the tick to its FLUSH of the rotated rows. -/
theorem tick_reaches_flush {millis : Nat} (turn : HostTurn s) (waiting : s.host.job = .waiting millis)
    (pending : pendingRequests s = []) (elapsed : s.inp.elapsed = true) :
    ∃ v, runReplied p (List.replicate 4 .notYet) s = .next (startBus (.flushing 0 0) (rowPair v.fb 0) v) ∧
      TickAt s .tickFlush (mapRows ror8 s.fb) none [] v := by
  obtain ⟨issued, begins, now⟩ := tick_begins (p := p) turn waiting pending elapsed
  obtain ⟨rotated, rotates, now, responded⟩ := now.rotates (p := p)
  obtain ⟨flushing, goes_on, now⟩ := now.goes_on (p := p) responded
  obtain ⟨v, starts, now⟩ := now.starts_flush (p := p)
  refine ⟨v, ?_, now⟩
  rw [List.replicate_succ, runReplied_cons_next begins, List.replicate_succ, runReplied_cons_next rotates,
    List.replicate_succ, runReplied_cons_next goes_on, List.replicate_one, runReplied_singleton, starts]

/-- The command on the bus leaves the tick as it was, but for the pairs it sent. -/
theorem TickAt.after_bus (now : TickAt s job fb port [] v) (frame : BusFrame v u) (idle : u.phase = .idle)
    (sink : u.sink = v.sink ++ sent) : TickAt s job fb port sent u where
  idle := idle
  fb := frame.fb.trans now.fb
  port := frame.cmd.trans now.port
  sink := by rw [sink, now.sink, List.append_nil]
  shown := frame.shown.trans now.shown
  host := by
    obtain ⟨queue, host⟩ := now.host
    obtain ⟨queue', host'⟩ := frame.host
    exact ⟨queue', by rw [host', host]⟩

/-- The host agent's step on the response to the FLUSH of a tick. -/
theorem TickAt.ends (now : TickAt s .tickFlush fb none sent u) (responded : u.rspValid = true) :
    stepReplied p .notYet u = .next (tickResponse (u.replied .notYet)) := by
  rw [stepReplied_hostTurn now.idle now.port, responded, hostMove_tickFlush (now.replied .notYet).job_eq]

/-- A row of a tick's buffer after its SHRLOOP (41_shift_engine.md R102). -/
theorem TickAt.row_rotated (now : TickAt s job (mapRows ror8 s.fb) port sent u) (r : Fin 8) :
    rowBits u.fb r = (rowBits s.fb r).rotateRight 1 := by
  rw [now.fb, rowBits_mapRows, ror8_eq_rotateRight]

/-- After a response other than `BusError` the tick publishes and the loop is as it was (60_exceptions.md R164). -/
theorem TickAt.publishes (now : TickAt s job fb port sent u) (answer : u.rsp.status ≠ .busError) :
    let t := tickResponse u
    t.fb = u.fb ∧ t.sink = s.sink ++ sent ∧ t.shown = s.shown ++ [t.fbQ] ∧ t.host.mode = s.host.mode ∧
      t.host.job = .free ∧ t.phase = .idle := by
  obtain ⟨queue, host⟩ := now.host
  rw [tickResponse_published answer]
  refine ⟨rfl, now.sink, ?_, ?_, rfl, now.idle⟩
  · exact congrArg (· ++ [u.fbQ]) now.shown
  · simp [host]

/-- After a `BusError` the tick stops the loop, surfaces the error and publishes nothing (60_exceptions.md R167). -/
theorem TickAt.stops (now : TickAt s job fb port sent u) (answer : u.rsp.status = .busError) :
    let t := tickResponse u
    t.fb = u.fb ∧ t.shown = s.shown ∧ t.host.mode = .stopped ∧ t.host.errors = s.host.errors ++ [.tickBusError] ∧
      t.rsp.status = .busError ∧ t.phase = .idle := by
  obtain ⟨queue, host⟩ := now.host
  rw [tickResponse_failed answer]
  exact ⟨rfl, now.shown, rfl, by simp [host], answer, now.idle⟩

end

/-- Settles O46: the FLUSH of the tick delivers the rotated rows, and its response publishes them; a move in the wait before
its end is none. -/
theorem tickShiftsFlushesPublishes : Obligations.TickShiftsFlushesPublishes := by
  refine ⟨fun p s millis waits turn waiting running pending elapsed within => ?_,
    fun p s millis turn waiting pending not_elapsed => ?_⟩
  · obtain ⟨v, start, now⟩ := tick_reaches_flush (p := p) turn waiting pending elapsed
    obtain ⟨u, delivers, frame, sink, ⟨rsp, responded⟩, idle, -⟩ := (flushAt_start v).delivers within
    have now := now.after_bus frame idle sink
    have answer : u.rsp.status ≠ .busError := by simp [rsp]
    obtain ⟨fb, sink, shown, mode, free, idle⟩ := (now.replied .notYet).publishes answer
    refine ⟨tickResponse (u.replied .notYet), ?_, ?_, ?_, shown, mode.trans running, free, idle⟩
    · rw [List.append_assoc, runReplied_append_next start, runReplied_append_next delivers, runReplied_singleton,
        now.ends responded]
    · rw [fb]
      exact (now.replied .notYet).row_rotated
    · rw [sink, fb]
      exact congrArg (fun fb => s.sink ++ okEvents fb 8) frame.fb.symm
  · obtain ⟨queued, arriving⟩ := List.append_eq_nil_iff.mp pending
    refine ⟨_, stepWith_hostTurn p turn, ?_⟩
    rw [hostMove_waiting (s := s.sample) waiting pending, not_elapsed, if_neg Bool.false_ne_true]
    exact ⟨by simp [HostAgent.enqueue, arriving], turn.port_free, turn.idle, rfl, rfl, rfl, rfl⟩

/-- Settles O47: an `err` and a timeout both end the offer of row `j` without an `ok`, and the FLUSH's `BusError` stops the
loop. -/
theorem tickBusErrorStopsTheLoop : Obligations.TickBusErrorStopsTheLoop := by
  unfold Obligations.TickBusErrorStopsTheLoop
  intro p s millis waits j failure turn waiting running pending elapsed within failure_cases
  obtain ⟨e, ends, failed⟩ : ∃ e, EndsOffer p failure e ∧ e ≠ .ok := by
    obtain rfl | ⟨limit, timed, rfl⟩ := failure_cases
    · exact ⟨.err, endsOffer_errAfter (within j), by decide⟩
    · exact ⟨.timedOut, endsOffer_timedOut timed, by decide⟩
  obtain ⟨v, start, now⟩ := tick_reaches_flush (p := p) turn waiting pending elapsed
  obtain ⟨u, fails, frame, sink, rsp, responded, idle, -⟩ := (flushAt_start v).fails within j ends failed
  rw [List.append_assoc] at sink
  have now := now.after_bus frame idle sink
  have answer : u.rsp.status = .busError := by rw [rsp, Err.status]
  obtain ⟨fb, rest⟩ := (now.replied .notYet).stops answer
  refine ⟨tickResponse (u.replied .notYet), ?_, ?_, rest⟩
  · rw [List.append_assoc, List.append_assoc, runReplied_append_next start, ← List.append_assoc,
      runReplied_append_next fails, runReplied_singleton, now.ends responded]
  · rw [fb]
    exact (now.replied .notYet).row_rotated

end Sys2Proof.Machine
end

section
/-! SUPPORT. The reset line (70_reset_and_hazards.md R176, R177): it wins over every other agent of a step. -/

namespace Sys2Proof.Machine

theorem stepWith_reset (p : Params) {s : State} (high : s.inp.rst = true) :
    stepWith p s = .next (resetBlock (Config.freeReceived s.draws) s.sample) :=
  if_pos high

/-- The snapshot of the buffer at reset shows no lit cell (10_state.md R35, R38). -/
theorem fbQ_reset : fbQ State.reset.fb = 0#64 := by decide

/-- Settles O3: the next state holds the reset values of the block, which are those of `State.reset`. -/
theorem rstResetsTheBlock : Obligations.RstResetsTheBlock := by
  unfold Obligations.RstResetsTheBlock
  intro p s high
  obtain ⟨-, -, -, -, -, word, -⟩ := resetValuesOfTheBlock
  exact ⟨_, stepWith_reset p high, cell_reset, rfl, word, rfl, rfl, rfl, rfl, fbQ_reset⟩

/-- Settles O4: the reset answers nothing, and the pair it finds on the port is recorded as withdrawn. -/
theorem rstAbandonsTheBusCommand : Obligations.RstAbandonsTheBusCommand := by
  unfold Obligations.RstAbandonsTheBusCommand
  intro p s pair high _ offered
  refine ⟨_, stepWith_reset p high, rfl, rfl, rfl, ?_⟩
  rw [resetBlock_sink, sample_sink, sample_offer, offered, endingEvents]

end Sys2Proof.Machine
end

section
/-! SUPPORT. A busy block whose pair is not answered (42_row_serializer.md R127, 70_reset_and_hazards.md R186): it waits on, and
only `BUS_TIMEOUT` ends the wait. -/

namespace Sys2Proof.Machine

variable {p : Params} {r : SinkReply} {s : State} {e : Ending}

/-- A command in progress has come to the state it is in, with no offer ended since. -/
theorem Offering.refl (s : State) : Offering s s.phase s.offer [] s where
  fb := rfl
  cmd := rfl
  shown := rfl
  host := ⟨_, rfl⟩
  phase := rfl
  offer := rfl
  rsp := rfl
  sink := (List.append_nil _).symm

theorem withinTimeout_of_untimed (untimed : p.busTimeout = none) (n : Nat) : WithinTimeout p n := by
  simp [WithinTimeout, untimed]

/-- An offer that ends without an `ok` ends the command in progress with `BusError`, a FLUSH and an EMIT alike. -/
theorem stepReplied_failed (busy : s.phase ≠ .idle) (ended : r.turn p (s.replied r).waited = some e) (failed : e ≠ .ok) :
    ∃ t op count, stepReplied p r s = .next t ∧ RaisedError t op .busError count := by
  cases phase : s.phase with
  | idle => exact absurd phase busy
  | flushing k n => exact ⟨_, _, _, stepReplied_flushing_failed phase ended failed, rfl, rfl, rfl, rfl, rfl⟩
  | emitting => exact ⟨_, _, _, stepReplied_emitting_failed phase ended failed, rfl, rfl, rfl, rfl, rfl⟩

theorem stepWith_flushing (p : Params) {k : Fin 8} {n : Fin 9} (low : s.inp.rst = false)
    (flushing : s.phase = .flushing k n) :
    stepWith p s = .next (flushTurn p.busTimeout s.inp.busAck s.inp.busErr k n s.sample) := by
  simp [stepWith, low, flushing]

theorem stepWith_emitting (p : Params) (low : s.inp.rst = false) (emitting : s.phase = .emitting) :
    stepWith p s = .next (emitTurn p.busTimeout s.inp.busAck s.inp.busErr s.sample) := by
  simp [stepWith, low, emitting]

/-- The state with another `bus_err` on the input ports of its coming step. -/
def State.withBusErr (busErr : Bool) (s : State) : State := { s with inp := { s.inp with busErr := busErr } }

@[simp] theorem withBusErr_busAck (busErr : Bool) (s : State) : (s.withBusErr busErr).inp.busAck = s.inp.busAck := rfl
@[simp] theorem withBusErr_sample (busErr : Bool) (s : State) : (s.withBusErr busErr).sample = s.sample := rfl

/-- Without `bus_ack` a step of a busy block does not look at `bus_err` (42_row_serializer.md R127): its bus turn asks first
whether there is an answer. -/
theorem stepWith_withBusErr (p : Params) (busErr : Bool) (busy : s.phase ≠ .idle) (unanswered : s.inp.busAck = false) :
    stepWith p (s.withBusErr busErr) = stepWith p s := by
  cases rst : s.inp.rst with
  | true =>
    rw [stepWith_reset p (s := s.withBusErr busErr) rst, stepWith_reset p rst, withBusErr_sample]
    rfl
  | false =>
    cases phase : s.phase with
    | idle => exact absurd phase busy
    | flushing k n =>
      rw [stepWith_flushing p (s := s.withBusErr busErr) rst phase, stepWith_flushing p rst phase, withBusErr_busAck,
        withBusErr_sample, unanswered]
      rfl
    | emitting =>
      rw [stepWith_emitting p (s := s.withBusErr busErr) rst phase, stepWith_emitting p rst phase, withBusErr_busAck,
        withBusErr_sample, unanswered]
      rfl

/-- Without a reset, a step of a busy block without `bus_ack` is one in which the Bus Sink does not answer yet, whatever
`bus_err` is. -/
theorem stepWith_unanswered (p : Params) (busy : s.phase ≠ .idle) (low : s.inp.rst = false)
    (unanswered : s.inp.busAck = false) : stepWith p s = stepReplied p .notYet s := by
  have ports : SinkReply.notYet.onPorts s.inp = { s.inp with busErr := false } := by
    simp [SinkReply.onPorts, low, unanswered]
  rw [stepReplied, ports, ← State.withBusErr, stepWith_withBusErr p false busy unanswered]

/-- With `BUS_TIMEOUT` set the wait for an answer ends the command when the last wait step is over (42_row_serializer.md
R127, R142). -/
theorem runReplied_timesOut {limit : Nat} (busy : s.phase ≠ .idle) (timed : p.busTimeout = some limit)
    (short : s.waited ≤ limit) :
    ∃ t op count, runReplied p (List.replicate (limit + 1 - s.waited) .notYet) s = .next t ∧
      RaisedError t op .busError count := by
  have last : s.waited + (limit - s.waited) = limit := Nat.add_sub_of_le short
  obtain ⟨t, run, now, waited⟩ :=
    (Offering.refl s).waits busy (n := limit - s.waited) ((withinTimeout_iff timed).mpr last.le)
  have ended : SinkReply.turn p .notYet (t.replied .notYet).waited = some .timedOut :=
    busTurn_eq_some.mpr (.inr (.inr ⟨rfl, timed.trans (congrArg some (waited.trans last).symm), rfl⟩))
  obtain ⟨u, op, count, step, raised⟩ := stepReplied_failed (now.phase ▸ busy) ended (by decide)
  refine ⟨u, op, count, ?_, raised⟩
  rw [Nat.succ_sub short, List.replicate_succ', runReplied_append_next run, runReplied_singleton, step]

/-- Settles O29: waits change nothing but the wait count, the timeout ends the command, and `bus_err` counts only with
`bus_ack`. -/
theorem unansweredPairStallsOrTimesOut : Obligations.UnansweredPairStallsOrTimesOut := by
  refine ⟨fun p s steps busy untimed => ?_, fun p s limit inv busy timed => ?_,
    fun p s busErr busy unanswered => stepWith_withBusErr p busErr busy unanswered,
    fun p s busy low unanswered short => ?_⟩
  · obtain ⟨t, run, now, -⟩ := (Offering.refl s).waits busy (withinTimeout_of_untimed untimed (s.waited + steps))
    exact ⟨t, run, now.phase, now.offer, now.fb, now.rsp, by simp [State.cmdReady, now.phase, busy]⟩
  · obtain ⟨-, bounded, -⟩ := inv
    obtain ⟨t, op, count, run, rsp, responded, idle, free, -⟩ := runReplied_timesOut busy timed (bounded limit timed)
    exact ⟨t, run, by rw [rsp, Err.status], responded, idle, free⟩
  · rw [stepWith_unanswered p busy low unanswered]
    exact ⟨_, stepReplied_notYet busy short, rfl, rfl, rfl, rfl, rfl, rfl, rfl⟩

end Sys2Proof.Machine
end

section
/-! SUPPORT. The setup sequence (70_reset_and_hazards.md R179, R180): its five pairs, the host agent from one EMIT to the next,
and what an error makes of it. -/

namespace Sys2Proof.Machine

/-- The pairs of the setup sequence, in order (70_reset_and_hazards.md R179). -/
def setupPairs : List Pair :=
  [⟨0x0B#8, 0x07#8⟩, ⟨0x09#8, 0x00#8⟩, ⟨0x0F#8, 0x00#8⟩, ⟨0x0C#8, 0x01#8⟩, ⟨0x0A#8, 0x05#8⟩]

/-- The pair of EMIT `k` of the setup sequence. -/
def setupPair (k : Fin 5) : Pair := setupPairs[k.val]'k.isLt

/-- The events of the first `j` pairs of the setup sequence, each answered `ok`. -/
def setupEvents (j : Nat) : List SinkEvent := (setupPairs.take j).map fun pair => { pair := pair, ending := .ok }

/-- The replies of one EMIT of the setup sequence: its acceptance, its bus-wait steps, the host's move on its response. -/
def emitReplies (wait : Nat) : List SinkReply := .notYet :: okAfter wait ++ [.notYet]

/-- The replies of the first `j` EMITs of the setup sequence. -/
def setupRepliesBefore (waits : Fin 5 → Nat) (j : Nat) : List SinkReply :=
  ((List.finRange 5).take j).flatMap fun k => emitReplies (waits k)

theorem setupEvents_succ (k : Fin 5) :
    setupEvents (k.val + 1) = setupEvents k.val ++ [{ pair := setupPair k, ending := .ok }] := by
  rw [setupEvents, ← List.take_concat_get' setupPairs k.val k.isLt, List.map_append]
  rfl

theorem setupRepliesBefore_succ (waits : Fin 5 → Nat) (k : Fin 5) :
    setupRepliesBefore waits (k.val + 1) = setupRepliesBefore waits k.val ++ emitReplies (waits k) := by
  have inside : k.val < (List.finRange 5).length := by simp
  rw [setupRepliesBefore, ← List.take_concat_get' _ k.val inside, List.flatMap_append, List.flatMap_singleton,
    List.getElem_finRange]
  rfl

/-- EMIT `k` of the setup sequence is an EMIT of pair `k`. -/
theorem setupCommand_eq_emit (k : Fin 5) :
    ∃ reg value, setupCommand k = .emit reg value ∧ commandPair reg value = setupPair k := by
  fin_cases k <;> exact ⟨_, _, rfl, rfl⟩

section

variable {p : Params} {s : State} {k : Fin 5}

theorem wellFormed_setupCommand (leftShift : Bool) (k : Fin 5) : (setupCommand k).wellFormed leftShift = true := by
  obtain ⟨reg, value, command, -⟩ := setupCommand_eq_emit k
  rw [command, Instr.wellFormed]

theorem exec_setupCommand (k : Fin 5) (s : State) :
    exec (setupCommand k) s = .next (startBus .emitting (setupPair k) s) := by
  obtain ⟨reg, value, command, pair⟩ := setupCommand_eq_emit k
  rw [command, ← pair]
  rfl

/-- The setup sequence begins on a request to a free host (70_reset_and_hazards.md R179; log entry 9). -/
theorem serve_beginSetup (pending : s.host.setup = .pending) :
    serve p .beginSetup none s = issue (setupCommand 0) (.setup 0) s := by
  simp [serve, pending]

/-- An OK to an EMIT before the last brings the next one (70_reset_and_hazards.md R180). -/
theorem setupResponse_next (k : Fin 4) (answer : s.rsp.status = .ok) :
    setupResponse k.castSucc s = issue (setupCommand k.succ) (.setup k.succ) s := by
  have more : k.castSucc ≠ 4 := k.castSucc_ne_last
  rw [setupResponse, if_pos answer, if_neg more, Fin.coeSucc_eq_succ]

/-- After the fifth OK the loop starts (60_exceptions.md R163). -/
theorem setupResponse_last (answer : s.rsp.status = .ok) :
    setupResponse 4 s = { s with host := { s.host with setup := .done, mode := .running, job := .free } } := by
  rw [setupResponse, if_pos answer, if_pos rfl]

/-- An error fails the setup and is surfaced (60_exceptions.md R148). -/
theorem setupResponse_failed (error : s.rsp.status ≠ .ok) :
    setupResponse k s = surface .setupFailed { s with host := { s.host with setup := .failed, job := .free } } :=
  if_neg error

end

/-- Settles O49: the host's move on an error response issues nothing. -/
theorem setupErrorStopsTheSetup : Obligations.SetupErrorStopsTheSetup := by
  unfold Obligations.SetupErrorStopsTheSetup
  intro p s k turn job responded error
  refine ⟨_, stepWith_hostTurn p turn, ?_⟩
  rw [responded, hostMove_setup (s := s.sample) job, setupResponse_failed (s := s.sample) error]
  exact ⟨rfl, rfl, turn.port_free, rfl, rfl, rfl⟩

/-- The setup sequence begun in `s` has come to `u`, where the host has just issued EMIT `k`, those before it answered
`ok`. What a tick leaves alone (`TickAt`), the setup leaves alone until it ends. -/
def SetupAt (s : State) (k : Fin 5) (u : State) : Prop :=
  TickAt s (.setup k) s.fb (some (encode (setupCommand k))) (setupEvents k.val) u

section

variable {p : Params} {s u v : State} {job : Job} {fb : FrameBuffer} {port : Option Word} {sent more : List SinkEvent}
  {k : Fin 5} {wait : Nat} {waits : Fin 5 → Nat}

/-- A command on the bus adds its pairs to those sent before it. -/
theorem TickAt.sends (now : TickAt s job fb port sent v) (frame : BusFrame v u) (idle : u.phase = .idle)
    (sink : u.sink = v.sink ++ more) : TickAt s job fb port (sent ++ more) u := by
  have before : TickAt { s with sink := s.sink ++ sent } job fb port [] v :=
    { now with sink := now.sink.trans (List.append_nil _).symm }
  have after := before.after_bus frame idle sink
  exact { after with sink := after.sink.trans (List.append_assoc ..) }

/-- A step under a reply that serves a request. -/
theorem stepReplied_serves {r : SinkReply} {request : Request} {resume : Option Nat} {later : List Request}
    (turn : HostTurn s) (job : s.host.job = resumed resume) (requests : pendingRequests s = request :: later) :
    stepReplied p r s = .next (serve p request resume { s.replied r with host := { s.host with queue := later } }) :=
  stepWith_serves p (s := { s with inp := r.onPorts s.inp }) ⟨rfl, turn.idle, turn.port_free⟩ job requests

/-- The step that serves the request for the setup issues its first EMIT. -/
theorem setup_begins {later : List Request} (turn : HostTurn s) (job : s.host.job = .free)
    (pending : s.host.setup = .pending) (requests : pendingRequests s = .beginSetup :: later) :
    ∃ t, stepReplied p .notYet s = .next t ∧ SetupAt s 0 t := by
  have now : TickAt s s.host.job s.fb none [] { s.replied .notYet with host := { s.host with queue := later } } :=
    ⟨turn.idle, rfl, turn.port_free, (List.append_nil _).symm, rfl, later, rfl⟩
  have serves := stepReplied_serves (p := p) (r := .notYet) (resume := none) turn job requests
  exact ⟨_, serves.trans (congrArg _ (serve_beginSetup pending)), now.issue (setupCommand 0) (.setup 0)⟩

/-- The block accepts EMIT `k` and answers it with OK and 1 (42_row_serializer.md R126). -/
theorem SetupAt.answered (now : SetupAt s k u) (within : WithinTimeout p wait) :
    ∃ t, runReplied p (.notYet :: okAfter wait) u = .next t ∧
      TickAt s (.setup k) s.fb none (setupEvents (k.val + 1)) t ∧ t.rspValid = true ∧ t.rsp.status = .ok ∧
      t.rsp.data = 1#8 := by
  have accepts : stepReplied p .notYet u = _ :=
    (stepReplied_encode (wellFormed_setupCommand _ k) now.idle now.port).trans (exec_setupCommand k _)
  have accepted : TickAt s (.setup k) s.fb none (setupEvents k.val) (u.replied .notYet).takeCommand :=
    { now.replied .notYet with port := rfl }
  obtain ⟨t, run, frame, sink, ⟨rsp, responded⟩, idle, -⟩ :=
    emit_delivers p (u.replied .notYet).takeCommand (setupPair k) (endsOffer_okAfter within)
  refine ⟨t, ?_, ?_, responded, by rw [rsp], by rw [rsp]⟩
  · rw [runReplied_cons_next accepts, run]
  · rw [setupEvents_succ]
    exact accepted.sends frame idle sink

/-- The host's move on the response to EMIT `k`. -/
theorem SetupAt.responds (now : SetupAt s k u) (within : WithinTimeout p wait) :
    ∃ v, runReplied p (emitReplies wait) u = .next (setupResponse k v) ∧
      TickAt s (.setup k) s.fb none (setupEvents (k.val + 1)) v ∧ v.rsp.status = .ok ∧ v.rsp.data = 1#8 := by
  obtain ⟨t, run, now, responded, answer⟩ := now.answered within
  have after := now.replied .notYet
  refine ⟨t.replied .notYet, ?_, after, answer⟩
  rw [emitReplies, runReplied_append_next run, runReplied_singleton, stepReplied_hostTurn now.idle now.port, responded,
    hostMove_setup after.job_eq]

/-- The `ok` to an EMIT before the last brings the next EMIT. -/
theorem SetupAt.next {k : Fin 4} (now : SetupAt s k.castSucc u) (within : WithinTimeout p wait) :
    ∃ t, runReplied p (emitReplies wait) u = .next t ∧ SetupAt s k.succ t := by
  obtain ⟨v, run, now, answer, -⟩ := now.responds within
  exact ⟨_, run.trans (congrArg _ (setupResponse_next k answer)), now.issue (setupCommand k.succ) (.setup k.succ)⟩

/-- When the EMITs before EMIT `k` are answered `ok`, the setup comes to EMIT `k`. -/
theorem SetupAt.reaches (start : SetupAt s 0 u) (within : ∀ k, WithinTimeout p (waits k)) (k : Fin 5) :
    ∃ t, runReplied p (setupRepliesBefore waits k.val) u = .next t ∧ SetupAt s k t := by
  induction k using Fin.induction with
  | zero => exact ⟨u, rfl, start⟩
  | succ k ih =>
    obtain ⟨v, before, now⟩ := ih
    obtain ⟨t, run, next⟩ := now.next (within k.castSucc)
    refine ⟨t, ?_, next⟩
    rw [Fin.val_succ, ← Fin.val_castSucc, setupRepliesBefore_succ, runReplied_append_next before, run]

end

/-- Settles O48: the setup comes from EMIT to EMIT, and the response to the last starts the loop. -/
theorem setupSendsFivePairs : Obligations.SetupSendsFivePairs := by
  unfold Obligations.SetupSendsFivePairs
  intro p s later waits turn job pending requests within
  obtain ⟨u, begins, start⟩ := setup_begins (p := p) turn job pending requests
  obtain ⟨w, before, now⟩ := start.reaches within 4
  obtain ⟨v, last, now, answer, data⟩ := now.responds (within 4)
  have replies : setupReplies waits = setupRepliesBefore waits (4 : Fin 5).val ++ emitReplies (waits 4) :=
    setupRepliesBefore_succ waits 4
  rw [runReplied_cons_next begins, replies, runReplied_append_next before, last, setupResponse_last answer]
  exact ⟨_, rfl, now.sink, rfl, rfl, answer, data, now.fb⟩

end Sys2Proof.Machine
end
